-- ==== Sys2Proof/Word.lean ====
section
/-! DEFINITION. The word types of the core (00_scope.md R6, R7): bytes, the 16-bit command word, the 8-byte block. -/

namespace Sys2Proof

/-- One mirror or chip register: 8 bits, bit 0 the least significant (R6 REG_WIDTH, R7). -/
abbrev Byte := BitVec 8

/-- A command word (R6 CMD_WIDTH, 30_encoding.md R90). -/
abbrev CommandWord := BitVec 16

/-- The eight bytes of one block transfer, byte `i` that of chip address `i` (20_memory.md R54). -/
abbrev Block := Vector Byte 8

end Sys2Proof
end

