-- ==== Sys2Proof/Syntax.lean ====
section
/-! DEFINITION. The commands of the core (30_encoding.md R91, opcode_table.json), the three fields of a command word
(R90), and the opcodes that name a command in its op field. -/

namespace Sys2Proof

/-- The 19 commands with their operands (R91, R92). Each operand has the width its rule reads, so every term is a
legal command. The Datetime operand is the DT_IN bundle of the command port (10_state.md R31), not part of the word. -/
inductive Instr where
  /-- BCD_DEC imm (40_codec.md R111). -/
  | bcdDec (imm : Byte)
  /-- BCD_ENC imm (R113). -/
  | bcdEnc (imm : Byte)
  /-- MIR_RD a (41_mirror.md R120). -/
  | mirRd (a : BitVec 3)
  /-- MIR_WR a, imm (R121). -/
  | mirWr (a : BitVec 3) (imm : Byte)
  /-- DT_DECODE (42_mapper.md R141). -/
  | dtDecode
  /-- DT_ENCODE (R143). -/
  | dtEncode
  /-- CLK_ENABLE (43_config.md R160). -/
  | clkEnable
  /-- CLK_DISABLE (R161). -/
  | clkDisable
  /-- SQW_RATE_SET rate (R162). -/
  | sqwRateSet (rate : BitVec 2)
  /-- SQW_EN_SET enable (R163). -/
  | sqwEnSet (enable : Bool)
  /-- OUT_SET level (R164). -/
  | outSet (level : Bool)
  /-- INIT (44_transactions.md R181). -/
  | init
  /-- READ_ALL (R182). -/
  | readAll
  /-- READ_DT (R183). -/
  | readDt
  /-- WRITE_DT (R184). -/
  | writeDt
  /-- START_CLOCK_DT (R185). -/
  | startClockDt
  /-- START_CLOCK (R186). -/
  | startClock
  /-- STOP_CLOCK (R187). -/
  | stopClock
  /-- START_SQW rate (R188). -/
  | startSqw (rate : BitVec 2)
  deriving DecidableEq, Repr

/-- The fields of a command word: op[15:11], a[10:8], imm[7:0] (R90). -/
structure Fields where
  op : BitVec 5
  a : BitVec 3
  imm : BitVec 8
  deriving DecidableEq, Repr

/-- The op values that name a command (R91). -/
inductive Opcode where
  | bcdDec | bcdEnc | mirRd | mirWr | dtDecode | dtEncode | clkEnable | clkDisable | sqwRateSet | sqwEnSet | outSet
  | init | readAll | readDt | writeDt | startClockDt | startClock | stopClock | startSqw
  deriving DecidableEq, Repr

end Sys2Proof
end

