-- ==== Sys2Proof/Machine/Encoding.lean ====
section
/-! DEFINITION. The encoding tables of the command word (30_encoding.md R90, R91, R92): the fields of a word, and the
op, a and imm columns of the opcode map. -/

namespace Sys2Proof

/-- The fields of a word: op = word[15:11], a = word[10:8], imm = word[7:0] (R90, R93). -/
def Fields.ofWord (w : CommandWord) : Fields :=
  ⟨w.extractLsb' 11 5, w.extractLsb' 8 3, w.extractLsb' 0 8⟩

/-- `word = {op, a, imm}` (R90). -/
def Fields.toWord (f : Fields) : CommandWord := f.op ++ f.a ++ f.imm

/-- The command an op value names: the op column of R91. Op 0x00, 0x0C to 0x0F and 0x18 to 0x1F are reserved (R94). -/
def Opcode.ofBits (op : BitVec 5) : Option Opcode :=
  match op.toNat with
  | 0x01 => some .bcdDec
  | 0x02 => some .bcdEnc
  | 0x03 => some .mirRd
  | 0x04 => some .mirWr
  | 0x05 => some .dtDecode
  | 0x06 => some .dtEncode
  | 0x07 => some .clkEnable
  | 0x08 => some .clkDisable
  | 0x09 => some .sqwRateSet
  | 0x0A => some .sqwEnSet
  | 0x0B => some .outSet
  | 0x10 => some .init
  | 0x11 => some .readAll
  | 0x12 => some .readDt
  | 0x13 => some .writeDt
  | 0x14 => some .startClockDt
  | 0x15 => some .startClock
  | 0x16 => some .stopClock
  | 0x17 => some .startSqw
  | _ => none

/-- The a column of R91: whether the command takes a mirror index; otherwise a must be 0. -/
def Opcode.takesIndex : Opcode → Bool
  | .mirRd | .mirWr => true
  | .bcdDec | .bcdEnc | .dtDecode | .dtEncode | .clkEnable | .clkDisable | .sqwRateSet | .sqwEnSet | .outSet
  | .init | .readAll | .readDt | .writeDt | .startClockDt | .startClock | .stopClock | .startSqw => false

/-- The imm column of R91: the operand bits of imm that the command reads; every other bit of imm must be 0. -/
def Opcode.immOperandBits : Opcode → BitVec 8
  | .bcdDec | .bcdEnc | .mirWr => 0xFF
  | .sqwRateSet | .startSqw => 0x03
  | .sqwEnSet | .outSet => 0x01
  | .mirRd | .dtDecode | .dtEncode | .clkEnable | .clkDisable
  | .init | .readAll | .readDt | .writeDt | .startClockDt | .startClock | .stopClock => 0x00

/-- The op value of each command (R91). -/
def Opcode.bits : Opcode → BitVec 5
  | .bcdDec => 0x01
  | .bcdEnc => 0x02
  | .mirRd => 0x03
  | .mirWr => 0x04
  | .dtDecode => 0x05
  | .dtEncode => 0x06
  | .clkEnable => 0x07
  | .clkDisable => 0x08
  | .sqwRateSet => 0x09
  | .sqwEnSet => 0x0A
  | .outSet => 0x0B
  | .init => 0x10
  | .readAll => 0x11
  | .readDt => 0x12
  | .writeDt => 0x13
  | .startClockDt => 0x14
  | .startClock => 0x15
  | .stopClock => 0x16
  | .startSqw => 0x17

/-- A boolean operand as imm: bit 0, with 1 = true (R92). -/
def boolImm (b : Bool) : BitVec 8 := if b then 1 else 0

end Sys2Proof
end

