-- ==== Sys2Proof/WellFormed.lean ====
section
/-! DEFINITION. When the fields of a command word are a command: the op is assigned and every bit of a field that must
be 0 is 0 (30_encoding.md R91, R93, R94). The operand widths of Instr leave no ill-formed command term, so the checks
are on the raw fields. -/

namespace Sys2Proof

/-- The op is not a reserved value (R94). -/
def Fields.opAssigned (f : Fields) : Bool := (Opcode.ofBits f.op).isSome

/-- Field a is 0 unless the command takes an index (R93, R94). -/
def Fields.aLegal (o : Opcode) (f : Fields) : Bool := o.takesIndex || f.a == 0

/-- The bits of imm beyond the command's operand are 0 (R93, R94). -/
def Fields.immLegal (o : Opcode) (f : Fields) : Bool := f.imm &&& ~~~ o.immOperandBits == 0

/-- The fields are those of a command (R94). -/
def Fields.wellFormed (f : Fields) : Bool :=
  match Opcode.ofBits f.op with
  | none => false
  | some o => f.aLegal o && f.immLegal o

end Sys2Proof
end

