-- ==== Sys2Proof/Decode.lean ====
section
/-! DEFINITION. Decoding of a command word (30_encoding.md R90 to R94), total on every word and rejecting by name, and
the encoder (R90, R91, R98) with the opcode table (opcode_table.json) as data. -/

namespace Sys2Proof

/-- Why a word is illegal (R94). -/
inductive IllegalWord where
  /-- The op is 0x00, 0x0C to 0x0F or 0x18 to 0x1F. -/
  | reservedOp (op : BitVec 5)
  /-- Field a must be 0 and is not. -/
  | indexNotZero (a : BitVec 3)
  /-- A bit of imm that must be 0 is not. -/
  | immNotZero (imm : BitVec 8)
  deriving DecidableEq, Repr

/-- Operand assembly (R92): the index is a, the byte is imm, the rate is imm[1:0], the boolean is imm[0]. -/
def Opcode.withOperands (o : Opcode) (f : Fields) : Instr :=
  match o with
  | .bcdDec => .bcdDec f.imm
  | .bcdEnc => .bcdEnc f.imm
  | .mirRd => .mirRd f.a
  | .mirWr => .mirWr f.a f.imm
  | .dtDecode => .dtDecode
  | .dtEncode => .dtEncode
  | .clkEnable => .clkEnable
  | .clkDisable => .clkDisable
  | .sqwRateSet => .sqwRateSet (f.imm.extractLsb' 0 2)
  | .sqwEnSet => .sqwEnSet (f.imm.getLsbD 0)
  | .outSet => .outSet (f.imm.getLsbD 0)
  | .init => .init
  | .readAll => .readAll
  | .readDt => .readDt
  | .writeDt => .writeDt
  | .startClockDt => .startClockDt
  | .startClock => .startClock
  | .stopClock => .stopClock
  | .startSqw => .startSqw (f.imm.extractLsb' 0 2)

/-- The command of a word's fields, or why there is none (R93, R94). -/
def decodeFields (f : Fields) : Except IllegalWord Instr :=
  match Opcode.ofBits f.op with
  | none => .error (.reservedOp f.op)
  | some o =>
    if !o.takesIndex && f.a != 0 then .error (.indexNotZero f.a)
    else if f.imm &&& ~~~ o.immOperandBits != 0 then .error (.immNotZero f.imm)
    else .ok (o.withOperands f)

/-- The decoder: it reads the whole 16-bit word, and there is one length (R90, R99). -/
def decode (w : CommandWord) : Except IllegalWord Instr := decodeFields (Fields.ofWord w)

/-- The decoder on a word numbered as the opcode table numbers it: `nbits` bits of `w`, zeros above. -/
def decodeTableWord (nbits w : Nat) : Option Instr := (decode (BitVec.ofNat 16 (w % 2 ^ nbits))).toOption

/-- The fields that encode a command (R91). -/
def Instr.toFields : Instr → Fields
  | .bcdDec imm => ⟨Opcode.bits .bcdDec, 0, imm⟩
  | .bcdEnc imm => ⟨Opcode.bits .bcdEnc, 0, imm⟩
  | .mirRd a => ⟨Opcode.bits .mirRd, a, 0⟩
  | .mirWr a imm => ⟨Opcode.bits .mirWr, a, imm⟩
  | .dtDecode => ⟨Opcode.bits .dtDecode, 0, 0⟩
  | .dtEncode => ⟨Opcode.bits .dtEncode, 0, 0⟩
  | .clkEnable => ⟨Opcode.bits .clkEnable, 0, 0⟩
  | .clkDisable => ⟨Opcode.bits .clkDisable, 0, 0⟩
  | .sqwRateSet r => ⟨Opcode.bits .sqwRateSet, 0, r.setWidth 8⟩
  | .sqwEnSet b => ⟨Opcode.bits .sqwEnSet, 0, boolImm b⟩
  | .outSet b => ⟨Opcode.bits .outSet, 0, boolImm b⟩
  | .init => ⟨Opcode.bits .init, 0, 0⟩
  | .readAll => ⟨Opcode.bits .readAll, 0, 0⟩
  | .readDt => ⟨Opcode.bits .readDt, 0, 0⟩
  | .writeDt => ⟨Opcode.bits .writeDt, 0, 0⟩
  | .startClockDt => ⟨Opcode.bits .startClockDt, 0, 0⟩
  | .startClock => ⟨Opcode.bits .startClock, 0, 0⟩
  | .stopClock => ⟨Opcode.bits .stopClock, 0, 0⟩
  | .startSqw r => ⟨Opcode.bits .startSqw, 0, r.setWidth 8⟩

/-- The word of a command (R98). -/
def encode (i : Instr) : CommandWord := i.toFields.toWord

/-- One row of opcode_table.json: its mnemonic, mask and match. -/
structure OpcodeRow where
  mnemonic : String
  mask : CommandWord
  pattern : CommandWord
  deriving DecidableEq, Repr

/-- `(word & mask) == match` (R93). -/
def OpcodeRow.accepts (r : OpcodeRow) (w : CommandWord) : Bool := w &&& r.mask == r.pattern

/-- The rows of opcode_table.json, in its order: the mirror-side commands. -/
def opcodeTableLocal : List OpcodeRow :=
  [⟨"BCD_DEC", 0xFF00, 0x0800⟩, ⟨"BCD_ENC", 0xFF00, 0x1000⟩, ⟨"MIR_RD", 0xF8FF, 0x1800⟩, ⟨"MIR_WR", 0xF800, 0x2000⟩,
   ⟨"DT_DECODE", 0xFFFF, 0x2800⟩, ⟨"DT_ENCODE", 0xFFFF, 0x3000⟩, ⟨"CLK_ENABLE", 0xFFFF, 0x3800⟩,
   ⟨"CLK_DISABLE", 0xFFFF, 0x4000⟩, ⟨"SQW_RATE_SET", 0xFFFC, 0x4800⟩, ⟨"SQW_EN_SET", 0xFFFE, 0x5000⟩,
   ⟨"OUT_SET", 0xFFFE, 0x5800⟩]

/-- The rows of opcode_table.json, in its order: the transactions. -/
def opcodeTableBus : List OpcodeRow :=
  [⟨"INIT", 0xFFFF, 0x8000⟩, ⟨"READ_ALL", 0xFFFF, 0x8800⟩, ⟨"READ_DT", 0xFFFF, 0x9000⟩, ⟨"WRITE_DT", 0xFFFF, 0x9800⟩,
   ⟨"START_CLOCK_DT", 0xFFFF, 0xA000⟩, ⟨"START_CLOCK", 0xFFFF, 0xA800⟩, ⟨"STOP_CLOCK", 0xFFFF, 0xB000⟩,
   ⟨"START_SQW", 0xFFFC, 0xB800⟩]

/-- opcode_table.json. -/
def opcodeTable : List OpcodeRow := opcodeTableLocal ++ opcodeTableBus

/-- The mnemonic of a command (R91, R96). -/
def Instr.mnemonic : Instr → String
  | .bcdDec _ => "BCD_DEC"
  | .bcdEnc _ => "BCD_ENC"
  | .mirRd _ => "MIR_RD"
  | .mirWr _ _ => "MIR_WR"
  | .dtDecode => "DT_DECODE"
  | .dtEncode => "DT_ENCODE"
  | .clkEnable => "CLK_ENABLE"
  | .clkDisable => "CLK_DISABLE"
  | .sqwRateSet _ => "SQW_RATE_SET"
  | .sqwEnSet _ => "SQW_EN_SET"
  | .outSet _ => "OUT_SET"
  | .init => "INIT"
  | .readAll => "READ_ALL"
  | .readDt => "READ_DT"
  | .writeDt => "WRITE_DT"
  | .startClockDt => "START_CLOCK_DT"
  | .startClock => "START_CLOCK"
  | .stopClock => "STOP_CLOCK"
  | .startSqw _ => "START_SQW"

end Sys2Proof
end

