-- ==== Sys2Proof/Config.lean ====
section
/-! DEFINITION. What is fixed for this hardware (00_scope.md R6), its open parameters, and the free values.
A free value is an opaque constant without a body: nothing in Lean can evaluate it or prove a value of it. -/

namespace Sys2Proof

/-- The transport's non-success codes: the OPEN parameter TransportCode (R6, R61, R220).
A code is named by a number, so that codes can be told apart and passed through, and nothing else
(DESIGN CHOICE, log 8). -/
structure TransportCode where
  id : Nat
  deriving DecidableEq, Repr, Inhabited

/-- The answer `r` of a result-returning transport call (R10, R61). -/
inductive CallResult where
  | ok
  | err (c : TransportCode)
  deriving DecidableEq, Repr, Inhabited

namespace Config

/-- DEVICE_ADDR: the chip's 7-bit bus address (R6, 20_memory.md R52). -/
def deviceAddress : BitVec 7 := 0x68

/-- NV_MIN, NV_MAX and NV_CAPACITY: the window of the non-volatile storage (R6, R53, R63). -/
def nvMin : Byte := 0x08
def nvMax : Byte := 0x3F
def nvCapacity : Byte := 56

/-- CENTURY_BASE (R6, 42_mapper.md R140, 90_conflicts.md C1). -/
def centuryBase : Nat := 2000

/-- The chip's power-up value of the control register, "bits RS1:RS0=11, others 0" (R12, 10_state.md R36). -/
def powerUpControl : Byte := 0x03

/-- ENC_OOR: BCD_ENC's output for inputs 100 to 255, an OPEN parameter (R6, 40_codec.md R112). Log 9. -/
opaque encOor : Byte → Byte

/-- The environment's `n`-th free answer to a result-returning call (R57, R61). Log 4. -/
opaque reply : Nat → CallResult

/-- The environment's `n`-th free answer to T.getStop (R64). Log 4. -/
opaque stopFlag : Nat → Bool

/-- The `n`-th free byte of a successful T.receive (R57, R67). Log 4. -/
opaque chipByte : Nat → Byte

/-- The `n`-th free byte a failed T.receive leaves in the mirror (44_transactions.md R180). Log 10. -/
opaque staleByte : Nat → Byte

end Config

end Sys2Proof
end

