-- ==== Sys2Proof/Machine/State.lean ====
section
/-! DEFINITION. The state of the core as plain data (10_state.md), its reset (70_reset_and_hazards.md R250), and the
reasons a step can stop. -/

namespace Sys2Proof.Machine

/-- The register mirror M, in its fixed order (R22). Field `i` from the top is M[i]. -/
structure Mirror where
  sec : Byte
  min : Byte
  hour : Byte
  wday : Byte
  day : Byte
  mon : Byte
  year : Byte
  ctl : Byte
  deriving DecidableEq, Repr

/-- The Datetime type (R30). -/
structure Datetime where
  year : BitVec 16
  month : Byte
  day : Byte
  hour : Byte
  minute : Byte
  second : Byte
  weekday : Byte
  mode12h : Bool
  pm : Bool
  deriving DecidableEq, Repr

/-- A Datetime with every numeric field 0 and both flags 0 (R29). -/
def Datetime.zero : Datetime := ⟨0, 0, 0, 0, 0, 0, 0, false, false⟩

/-- The type of RESULT (R26, 60_exceptions.md R220). -/
inductive Result where
  | success
  | busFail (c : TransportCode)
  | illegal
  deriving DecidableEq, Repr

/-- The sequencer state (R33). `step` is the index of the command's next transport call (log 6). -/
inductive Phase where
  | idle
  | busy (cmd : Instr) (step : Nat)
  deriving DecidableEq, Repr

/-- A transport call with its arguments (20_memory.md R60). -/
inductive Call where
  | setAddr (a : BitVec 7)
  | windowBegin (max cap min : Byte)
  | getStop
  | setStop (b : Bool)
  | setRepeatedStart
  | send (bytes : List Byte)
  | receive (n : Nat)
  | sendPrefixed (payload pfx : List Byte) (stop : Bool)
  deriving DecidableEq, Repr

/-- The answer to a transport call, in the form its call has (R60, R61). The bytes of a failed receive carry no
meaning (R67), so they are not part of its answer. -/
inductive Answer where
  | none
  | flag (b : Bool)
  | result (r : CallResult)
  | received (bytes : Block)
  deriving DecidableEq, Repr

/-- One transport event: a call and the answer it got (R60, R191). -/
structure Event where
  call : Call
  answer : Answer
  deriving DecidableEq, Repr

/-- What the host presents on the command port: a command word together with the DT_IN bundle (R31, R90). -/
structure Command where
  word : CommandWord
  dtIn : Datetime
  deriving DecidableEq, Repr

/-- The environment as the core meets it (R20, R40, R57). None of these fields is a register of the core: they are the
model's own (log 4, log 11). -/
structure Env where
  /-- Answers ready for result-returning calls, the next first; `none` means not answered at this step (log 5). -/
  replies : List (Option CallResult)
  /-- Answers ready for T.getStop, the next first. -/
  stopFlags : List Bool
  /-- Blocks ready for successful T.receive(8) calls, the next first. -/
  blocks : List Block
  /-- How many free values have been drawn. -/
  draws : Nat
  /-- The transport events so far, oldest first. -/
  trace : List Event
  deriving DecidableEq, Repr

/-- The state: the core's registers (R22 to R33), the command port (R31), and the environment. -/
structure State where
  /-- M (R22). -/
  mirror : Mirror
  /-- MV, the mirror-trust bit (R25). -/
  mv : Bool
  /-- RESULT (R26). -/
  result : Result
  /-- CODEC_OUT (R27). -/
  codecOut : Byte
  /-- DATA_OUT (R28). -/
  dataOut : Byte
  /-- DT_OUT (R29). -/
  dtOut : Datetime
  /-- SAVED_STOP (R32). -/
  savedStop : Bool
  /-- PHASE (R33). -/
  phase : Phase
  /-- DT_IN as sampled when the last command was accepted (R31, log 3). -/
  dtIn : Datetime
  /-- The commands the host presents, in its order; the first is the one on the port (R21, R70, log 12). -/
  pending : List Command
  /-- The environment. -/
  env : Env
  deriving DecidableEq, Repr

/-- Why a step stops with a fault. -/
inductive Fault where
  /-- Raised by `step`, through `resume`, in a state whose PHASE is BUSY(cmd, step) for a step at which cmd awaits no
  answer. The spec gives such a phase no meaning (R33), no run reaches one, and stopping is safe (log 15). -/
  | phaseOutsideSequence
  deriving DecidableEq, Repr

/-- Why an instruction is refused. -/
inductive Refusal where
  /-- Raised by an arm of `exec` whose instruction has no meaning yet; safe. No arm raises it. -/
  | notModelled (mnemonic : String)
  deriving DecidableEq, Repr

/-- The state right after reset (R250), for given contents `m` of the mirror and `b` of SAVED_STOP, which R250 leaves
unspecified, and for any command the host presents first. -/
def State.resetWith (m : Mirror) (b : Bool) : State where
  mirror := m
  mv := false
  result := .success
  codecOut := 0x00
  dataOut := 0x00
  dtOut := Datetime.zero
  savedStop := b
  phase := .idle
  dtIn := Datetime.zero
  pending := []
  env := ⟨[], [], [], 0, []⟩

/-- The mirror contents the model names for reset (DESIGN CHOICE, unsafe, log 1): R24 gives none. -/
def Mirror.zero : Mirror := ⟨0, 0, 0, 0, 0, 0, 0, 0⟩

/-- The machine right after reset (R250), at the mirror and SAVED_STOP values that log 1 and log 2 name. -/
def State.reset : State := State.resetWith Mirror.zero false

end Sys2Proof.Machine
end

