-- ==== Sys2Proof/Machine/Operands.lean ====
section
/-! DEFINITION. Operand forms and byte formats: the mirror by index (10_state.md R22, 20_memory.md R51, R52, R54), the
register fields (R36 to R39, 30_encoding.md R80 to R89), the operand values (R92), and the BCD codec (40_codec.md). -/

namespace Sys2Proof.Machine

/-! ## The mirror by index -/

/-- `M[a]` (R9, R22). Every 3-bit index names a register (R51). -/
def Mirror.get (m : Mirror) (a : BitVec 3) : Byte :=
  match a.toNat with
  | 0 => m.sec
  | 1 => m.min
  | 2 => m.hour
  | 3 => m.wday
  | 4 => m.day
  | 5 => m.mon
  | 6 => m.year
  | _ => m.ctl

/-- `M[a] <- v` (R9, R22). -/
def Mirror.set (m : Mirror) (a : BitVec 3) (v : Byte) : Mirror where
  sec := if a = 0 then v else m.sec
  min := if a = 1 then v else m.min
  hour := if a = 2 then v else m.hour
  wday := if a = 3 then v else m.wday
  day := if a = 4 then v else m.day
  mon := if a = 5 then v else m.mon
  year := if a = 6 then v else m.year
  ctl := if a = 7 then v else m.ctl

/-- The mirror's bytes in transfer order, M[0] first (R54). -/
def Mirror.toList (m : Mirror) : List Byte := [m.sec, m.min, m.hour, m.wday, m.day, m.mon, m.year, m.ctl]

/-- `for i in 0..7: M[i] <- bytes[i]` (44_transactions.md R180): byte `i` is that of chip address `i` (R52, R54). -/
def Mirror.ofBlock (b : Block) : Mirror where
  sec := b[0]
  min := b[1]
  hour := b[2]
  wday := b[3]
  day := b[4]
  mon := b[5]
  year := b[6]
  ctl := b[7]

/-- The chip register address whose image is `M[a]` (R22, R52). -/
def chipAddress (a : BitVec 3) : Byte := a.setWidth 8

/-- The address of the seconds register and of the control register: the two register pointers the core sends (R52, R58). -/
def secondsAddress : Byte := 0x00
def controlAddress : Byte := 0x07

/-! ## Fields of the register bytes -/

/-- CH, the clock-halt bit (R38). -/
def Mirror.ch (m : Mirror) : Bool := m.sec.getLsbD 7
/-- The 12/24-hour mode flag (R39). -/
def Mirror.hourMode12 (m : Mirror) : Bool := m.hour.getLsbD 6
/-- Hour bit 5: the PM flag in 12-hour mode (R39, R83), hour data in 24-hour mode (R84). -/
def Mirror.hourPm (m : Mirror) : Bool := m.hour.getLsbD 5
/-- OUT, the output level (R36). -/
def Mirror.out (m : Mirror) : Bool := m.ctl.getLsbD 7
/-- SQWE, the square-wave enable (R36). -/
def Mirror.sqwe (m : Mirror) : Bool := m.ctl.getLsbD 4
/-- RS1:RS0, the rate select (R36). -/
def Mirror.rs (m : Mirror) : BitVec 2 := m.ctl.extractLsb' 0 2

/-- `M[0] <- M[0] & 0x7F`: clear CH, keep the seconds (43_config.md R160). -/
def Mirror.clearCh (m : Mirror) : Mirror := { m with sec := m.sec &&& 0x7F }
/-- `M[0] <- M[0] | 0x80`: set CH, keep the seconds (R161). -/
def Mirror.setCh (m : Mirror) : Mirror := { m with sec := m.sec ||| 0x80 }
/-- `M[7] <- (M[7] & 0xFC) | rate` (R162). -/
def Mirror.setRate (m : Mirror) (rate : BitVec 2) : Mirror :=
  { m with ctl := (m.ctl &&& 0xFC) ||| rate.setWidth 8 }
/-- `M[7] <- (M[7] & 0xEF) | (enable << 4)` (R163). -/
def Mirror.setSqwe (m : Mirror) (enable : Bool) : Mirror :=
  { m with ctl := (m.ctl &&& 0xEF) ||| (boolImm enable <<< 4) }
/-- `M[7] <- (M[7] & 0x7F) | (level << 7)` (R164). -/
def Mirror.setOut (m : Mirror) (level : Bool) : Mirror :=
  { m with ctl := (m.ctl &&& 0x7F) ||| (boolImm level <<< 7) }
/-- `M[7] <- ((M[7] | 0x10) & 0xFC) | rate`: SQWE <- 1, RS <- rate, the rest kept (44_transactions.md R188). -/
def Mirror.setSquareWave (m : Mirror) (rate : BitVec 2) : Mirror :=
  { m with ctl := ((m.ctl ||| 0x10) &&& 0xFC) ||| rate.setWidth 8 }

/-- The frequency in Hz that a rate code selects (R37). The core never interprets it (log 20). -/
def rateHz (rate : BitVec 2) : Nat :=
  match rate.toNat with
  | 0 => 1
  | 1 => 4096
  | 2 => 8192
  | _ => 32768

/-! ## The BCD codec -/

/-- The tens digit of a packed BCD byte, bits 7:4, and its units digit, bits 3:0 (R55, R80). -/
def bcdTens (b : Byte) : Nat := (b.extractLsb' 4 4).toNat
def bcdUnits (b : Byte) : Nat := (b.extractLsb' 0 4).toNat

/-- Both nibbles are decimal digits (R80). -/
def isBcd (b : Byte) : Bool := decide (bcdTens b ≤ 9) && decide (bcdUnits b ≤ 9)

/-- `value = byte - 6*(byte >> 4)` (40_codec.md R110): total, and never below zero. -/
def decodeBcd (b : Byte) : Byte := BitVec.ofNat 8 (b.toNat - 6 * (b.toNat >>> 4))

/-- `byte = value + 6*(value / 10)` for values 0 to 99; the open parameter ENC_OOR above (R112). -/
def encodeBcd (v : Byte) : Byte :=
  if v.toNat ≤ 99 then BitVec.ofNat 8 (v.toNat + 6 * (v.toNat / 10)) else Config.encOor v

/-- The byte is packed BCD of a value from `lo` to `hi` (R80). -/
def bcdBetween (b : Byte) (lo hi : Nat) : Bool :=
  isBcd b && decide (lo ≤ 10 * bcdTens b + bcdUnits b) && decide (10 * bcdTens b + bcdUnits b ≤ hi)

/-- The timekeeping bytes have the formats of R81 to R88: BCD digits in the ranges of their registers, minute bit 7 and
hour bit 7 zero, and the hour's range by its mode. The control byte has no format to break (R89). -/
def Mirror.formatted (m : Mirror) : Bool :=
  bcdBetween (m.sec &&& 0x7F) 0 59 && bcdBetween m.min 0 59 && !m.hour.getLsbD 7 &&
    (if m.hourMode12 then bcdBetween (m.hour &&& 0x1F) 1 12 else bcdBetween m.hour 0 23) &&
    decide (1 ≤ m.wday.toNat ∧ m.wday.toNat ≤ 7) && bcdBetween m.day 1 31 && bcdBetween m.mon 1 12 &&
    bcdBetween m.year 0 99

/-- `clamp(x, lo, hi) = min(max(x, lo), hi)` (00_scope.md R8). -/
def clamp (x lo hi : Nat) : Nat := min (max x lo) hi

end Sys2Proof.Machine
end

