-- ==== Sys2Proof/Machine/Flags.lean ====
section
/-! DEFINITION. The status outputs (41_mirror.md R122 to R129): continuous functions of the state. The core has no
arithmetic flag (40_codec.md R114 item 4) and no condition-code register (10_state.md R35). -/

namespace Sys2Proof.Machine

/-- SQWE_O = M[7][4] (R122). -/
def State.sqweO (s : State) : Bool := s.mirror.sqwe
/-- RATE_O = M[7][1:0] (R123). -/
def State.rateO (s : State) : BitVec 2 := s.mirror.rs
/-- OUT_O = M[7][7] (R124). -/
def State.outO (s : State) : Bool := s.mirror.out
/-- PUD_O = (M[7] == 0x03), on all eight bits (R125). -/
def State.pudO (s : State) : Bool := s.mirror.ctl == Config.powerUpControl
/-- RUN_O = NOT M[0][7] (R126). -/
def State.runO (s : State) : Bool := !s.mirror.ch
/-- H12_O = M[2][6] (R127). -/
def State.h12O (s : State) : Bool := s.mirror.hourMode12
/-- MV_O = MV (R128). -/
def State.mvO (s : State) : Bool := s.mv
/-- READY = (PHASE = IDLE) (R33, R128). -/
def State.ready (s : State) : Bool := s.phase == .idle

/-- Everything the host can sample (10_state.md R34). -/
structure Outputs where
  sqweO : Bool
  rateO : BitVec 2
  outO : Bool
  pudO : Bool
  runO : Bool
  h12O : Bool
  mvO : Bool
  result : Result
  codecOut : Byte
  dataOut : Byte
  dtOut : Datetime
  deriving DecidableEq, Repr

/-- The outputs as they stand (R128). -/
def State.outputs (s : State) : Outputs where
  sqweO := s.sqweO
  rateO := s.rateO
  outO := s.outO
  pudO := s.pudO
  runO := s.runO
  h12O := s.h12O
  mvO := s.mvO
  result := s.result
  codecOut := s.codecOut
  dataOut := s.dataOut
  dtOut := s.dtOut

/-- What the host samples: the outputs while READY = 1, nothing while READY = 0, where no output is defined
(R21, R128, log 14). -/
def State.sample (s : State) : Option Outputs := if s.ready then some s.outputs else none

end Sys2Proof.Machine
end

