-- ==== Sys2Proof/Machine/Ops.lean ====
section
/-! DEFINITION. The shared operations: finishing a command (00_scope.md R11), the two exceptional outcomes BUS_FAIL and
ILLEGAL (60_exceptions.md R222, R225), the command port (10_state.md R21, R31), the environment's answers and free
values (20_memory.md R57, R61), and one transport call (R10, R70). -/

namespace Sys2Proof.Machine

/-! ## Finishing a command -/

/-- `finish(res)`: RESULT <- res, and the sequencer returns to IDLE (R11). -/
def finish (r : Result) (s : State) : State := { s with result := r, phase := .idle }

/-- Taking a bus failure, the one shared exception entry: MV <- 0, RESULT <- BUS_FAIL(c), PHASE <- IDLE, nothing else
(R11 `abort_on`, R189, R225). There is no return from it: the next command is accepted as usual (R226). -/
def busFail (c : TransportCode) (s : State) : State := finish (.busFail c) { s with mv := false }

/-- Taking an illegal command word: RESULT <- ILLEGAL, PHASE returns to IDLE, no other state changes (R94, R222). -/
def takeIllegal (s : State) : State := finish .illegal s

/-! ## The command port -/

/-- The host presents a command; the port holds it until it is accepted, after those before it (R21, R70, R257). -/
def State.present (c : Command) (s : State) : State := { s with pending := s.pending ++ [c] }

/-- The core takes the first presented command off the port to run it, and samples its DT_IN (R21, R31). -/
def State.accept (c : Command) (rest : List Command) (s : State) : State := { s with dtIn := c.dtIn, pending := rest }

/-- The core takes an illegal word off the port: it is not accepted, so its DT_IN is not sampled (R11, R31, R94). -/
def State.discardWord (rest : List Command) (s : State) : State := { s with pending := rest }

/-! ## Answers and free values of the environment -/

/-- The answer to a result-returning call: the next one the environment has ready, or a free one (R57, R61).
`none` means that the call is not answered at this step (93_implementation_defined.md U10). -/
def State.nextReply (s : State) : Option CallResult × State :=
  match s.env.replies with
  | r :: rest => (r, { s with env := { s.env with replies := rest } })
  | [] => (some (Config.reply s.env.draws), { s with env := { s.env with draws := s.env.draws + 1 } })

/-- The answer to T.getStop, which always completes (R61, R64). -/
def State.nextStopFlag (s : State) : Bool × State :=
  match s.env.stopFlags with
  | b :: rest => (b, { s with env := { s.env with stopFlags := rest } })
  | [] => (Config.stopFlag s.env.draws, { s with env := { s.env with draws := s.env.draws + 1 } })

/-- The eight bytes of a successful T.receive(8) (R57, R67). -/
def State.nextBlock (s : State) : Block × State :=
  match s.env.blocks with
  | b :: rest => (b, { s with env := { s.env with blocks := rest } })
  | [] => (Vector.ofFn fun i => Config.chipByte (s.env.draws + i.val),
           { s with env := { s.env with draws := s.env.draws + 8 } })

/-- `for i in 0..7: M[i] <- any` (44_transactions.md R180). Each byte is a free value (log 10). -/
def State.scrambleMirror (s : State) : State :=
  { s with
    mirror := .ofBlock (Vector.ofFn fun i => Config.staleByte (s.env.draws + i.val))
    env := { s.env with draws := s.env.draws + 8 } }

/-! ## Transport calls -/

/-- Record a transport event (R60, R70: in program order). -/
def State.emit (c : Call) (a : Answer) (s : State) : State :=
  { s with env := { s.env with trace := s.env.trace ++ [⟨c, a⟩] } }

/-- The command waits for the answer to its call number `k` (R21, R33, U10). -/
def State.waitAt (cmd : Instr) (k : Nat) (s : State) : State := { s with phase := .busy cmd k }

/-- One result-returning call `c`, number `k` of command `cmd`: emitted, and completed with its answer before anything
that follows it (R10, R61, R70). On ERR(e) the command goes on with `onErr e`, on OK with `onOk`. -/
def resultCall (cmd : Instr) (k : Nat) (c : Call) (onErr : TransportCode → State → State) (onOk : State → State)
    (s : State) : State :=
  match s.nextReply with
  | (none, s₁) => s₁.waitAt cmd k
  | (some .ok, s₁) => onOk (s₁.emit c (.result .ok))
  | (some (.err e), s₁) => onErr e (s₁.emit c (.result (.err e)))

/-- T.sendPrefixed of a payload behind the one-byte register pointer `reg`, with a stop condition (R58, R68), and
`abort_on` its answer (R11). -/
def registerWrite (cmd : Instr) (k : Nat) (payload : List Byte) (reg : Byte) (onOk : State → State) (s : State) : State :=
  resultCall cmd k (.sendPrefixed payload [reg] true) busFail onOk s

end Sys2Proof.Machine
end

