-- ==== Sys2Proof/Machine/Codec.lean ====
section
/-! DEFINITION. The codec commands (40_codec.md R111, R113). -/

namespace Sys2Proof.Machine

/-- BCD_DEC (R111). -/
def execBcdDec (imm : Byte) (s : State) : Host.Outcome State Fault Refusal :=
  .next (finish .success { s with codecOut := decodeBcd imm })

/-- BCD_ENC (R113): above 99 the output is the open parameter ENC_OOR. -/
def execBcdEnc (imm : Byte) (s : State) : Host.Outcome State Fault Refusal :=
  .next (finish .success { s with codecOut := encodeBcd imm })

end Sys2Proof.Machine
end

