-- ==== Sys2Proof/Machine/ConfigController.lean ====
section
/-! DEFINITION. The configuration controller's bit operations (43_config.md R160 to R165): each changes only the named
bits of M[0] or M[7]. -/

namespace Sys2Proof.Machine

/-- CLK_ENABLE (R160). -/
def execClkEnable (s : State) : Host.Outcome State Fault Refusal :=
  .next (finish .success { s with mirror := s.mirror.clearCh })

/-- CLK_DISABLE (R161). -/
def execClkDisable (s : State) : Host.Outcome State Fault Refusal :=
  .next (finish .success { s with mirror := s.mirror.setCh })

/-- SQW_RATE_SET (R162). -/
def execSqwRateSet (rate : BitVec 2) (s : State) : Host.Outcome State Fault Refusal :=
  .next (finish .success { s with mirror := s.mirror.setRate rate })

/-- SQW_EN_SET (R163). -/
def execSqwEnSet (enable : Bool) (s : State) : Host.Outcome State Fault Refusal :=
  .next (finish .success { s with mirror := s.mirror.setSqwe enable })

/-- OUT_SET (R164). -/
def execOutSet (level : Bool) (s : State) : Host.Outcome State Fault Refusal :=
  .next (finish .success { s with mirror := s.mirror.setOut level })

end Sys2Proof.Machine
end

