-- ==== Sys2Proof/Machine/Mapper.lean ====
section
/-! DEFINITION. The datetime mapper: its two functions and the two commands that expose them (42_mapper.md). -/

namespace Sys2Proof.Machine

/-- `decodeDT(M)` (R140). In 24-hour mode the hour byte is decoded whole and pm is 0. M[7] is not read. -/
def decodeDT (m : Mirror) : Datetime where
  second := decodeBcd (m.sec &&& 0x7F)
  minute := decodeBcd m.min
  mode12h := m.hourMode12
  pm := m.hourMode12 && m.hourPm
  hour := if m.hourMode12 then decodeBcd (m.hour &&& 0x9F) else decodeBcd m.hour
  day := decodeBcd m.day
  month := decodeBcd m.mon
  year := (decodeBcd m.year).setWidth 16 + BitVec.ofNat 16 Config.centuryBase
  weekday := m.wday

/-- The hour byte encodeDT writes (R142). The pm bit comes from dt.pm alone, never from the size of dt.hour. -/
def encodeHour (dt : Datetime) : Byte :=
  if dt.mode12h then
    let h := dt.hour.toNat % 12
    0x40 ||| (if dt.pm then 0x20 else 0x00) ||| encodeBcd (BitVec.ofNat 8 (if h = 0 then 12 else h))
  else encodeBcd (BitVec.ofNat 8 (dt.hour.toNat % 24))

/-- `encodeDT(M, dt)` (R142): time fields wrap, calendar fields clamp (R145), CH and M[7] are kept. -/
def encodeDT (m : Mirror) (dt : Datetime) : Mirror where
  sec := (m.sec &&& 0x80) ||| encodeBcd (BitVec.ofNat 8 (dt.second.toNat % 60))
  min := encodeBcd (BitVec.ofNat 8 (dt.minute.toNat % 60))
  hour := encodeHour dt
  wday := BitVec.ofNat 8 (clamp dt.weekday.toNat 1 7)
  day := encodeBcd (BitVec.ofNat 8 (clamp dt.day.toNat 1 31))
  mon := encodeBcd (BitVec.ofNat 8 (clamp dt.month.toNat 1 12))
  year := encodeBcd (BitVec.ofNat 8 (dt.year.toNat % 100))
  ctl := m.ctl

/-- DT_DECODE (R141). -/
def execDtDecode (s : State) : Host.Outcome State Fault Refusal :=
  .next (finish .success { s with dtOut := decodeDT s.mirror })

/-- DT_ENCODE (R143), with DT_IN as sampled at acceptance. -/
def execDtEncode (s : State) : Host.Outcome State Fault Refusal :=
  .next (finish .success { s with mirror := encodeDT s.mirror s.dtIn })

end Sys2Proof.Machine
end

