-- ==== Sys2Proof/Machine/MirrorAccess.lean ====
section
/-! DEFINITION. The mirror access commands (41_mirror.md R120, R121, R130). -/

namespace Sys2Proof.Machine

/-- MIR_RD (R120). -/
def execMirRd (a : BitVec 3) (s : State) : Host.Outcome State Fault Refusal :=
  .next (finish .success { s with dataOut := s.mirror.get a })

/-- MIR_WR (R121): every byte value is accepted in every register. -/
def execMirWr (a : BitVec 3) (imm : Byte) (s : State) : Host.Outcome State Fault Refusal :=
  .next (finish .success { s with mirror := s.mirror.set a imm })

end Sys2Proof.Machine
end

