-- ==== Sys2Proof/Machine/Transactions.lean ====
section
/-! DEFINITION. The transaction sequencer (44_transactions.md). A command is written as stages, one for each call whose
answer it waits for, so that a command whose answer is delayed goes on where it stopped (10_state.md R33, log 5).
A stage that finishes or aborts ends the whole command (R192): nothing follows it. -/

namespace Sys2Proof.Machine

/-! ## The block read -/

/-- `T.setStop(SAVED_STOP)` (R180). -/
def restoreStop (s : State) : State := s.emit (.setStop s.savedStop) .none

/-- The second half of `block_read()` (R180): T.receive(8) as call `k`, the restore on either answer, then `after`. -/
def receiveStage (cmd : Instr) (k : Nat) (after : State → State) (s : State) : State :=
  match s.nextReply with
  | (none, s₁) => s₁.waitAt cmd k
  | (some .ok, s₁) =>
    let (bytes, s₂) := s₁.nextBlock
    let s₃ := restoreStop (s₂.emit (.receive 8) (.received bytes))
    after { s₃ with mirror := .ofBlock bytes, mv := true }
  | (some (.err c), s₁) =>
    busFail c (restoreStop (s₁.emit (.receive 8) (.result (.err c)))).scrambleMirror

/-- T.send([0x00]) as call `k`, and the receive after it; nothing comes between them (R180, 20_memory.md R73). -/
def sendPointerStage (cmd : Instr) (k : Nat) (after : State → State) (s : State) : State :=
  resultCall cmd k (.send [secondsAddress]) (fun c s₁ => busFail c (restoreStop s₁)) (receiveStage cmd (k + 1) after) s

/-- `block_read()` (R180), its calls numbered from `k`: getStop, setRepeatedStart, send, receive, setStop. -/
def blockRead (cmd : Instr) (k : Nat) (after : State → State) (s : State) : State :=
  let (saved, s₁) := s.nextStopFlag
  let s₂ := ({ s₁ with savedStop := saved }.emit .getStop (.flag saved)).emit .setRepeatedStart .none
  sendPointerStage cmd (k + 2) after s₂

/-! ## The register writes -/

/-- The block write of M[0..7] as call `k`, the command's last (R184, R185). -/
def blockWriteStage (cmd : Instr) (k : Nat) (s : State) : State :=
  registerWrite cmd k s.mirror.toList secondsAddress (finish .success) s

/-- The seconds write of M[0] as call `k`, the command's last (R186, R187). -/
def secondsWriteStage (cmd : Instr) (k : Nat) (s : State) : State :=
  registerWrite cmd k [s.mirror.sec] secondsAddress (finish .success) s

/-! ## INIT -/

/-- `T.windowBegin(0x3F, 56, 0x08)`, call 1 of INIT (R181, R63). -/
def windowBeginStage (s : State) : State :=
  resultCall .init 1 (.windowBegin Config.nvMax Config.nvCapacity Config.nvMin) busFail (finish .success) s

/-- `T.setAddr(0x68)`, call 0 of INIT (R181, R62). -/
def setAddrStage (s : State) : State :=
  resultCall .init 0 (.setAddr Config.deviceAddress) busFail windowBeginStage s

/-- INIT (R181). -/
def execInit (s : State) : Host.Outcome State Fault Refusal := .next (setAddrStage s)

/-! ## READ_ALL and READ_DT -/

/-- READ_ALL (R182). -/
def execReadAll (s : State) : Host.Outcome State Fault Refusal := .next (blockRead .readAll 0 (finish .success) s)

/-- `DT_OUT <- decodeDT(M)`, then finish (R183). -/
def publishDatetime (s : State) : State := finish .success { s with dtOut := decodeDT s.mirror }

/-- READ_DT (R183): DT_OUT is written on success only. -/
def execReadDt (s : State) : Host.Outcome State Fault Refusal := .next (blockRead .readDt 0 publishDatetime s)

/-! ## WRITE_DT and START_CLOCK_DT -/

/-- WRITE_DT (R184). -/
def execWriteDt (s : State) : Host.Outcome State Fault Refusal :=
  .next (blockWriteStage .writeDt 0 { s with mirror := encodeDT s.mirror s.dtIn })

/-- START_CLOCK_DT (R185): CH is cleared first, and encodeDT keeps it clear. -/
def execStartClockDt (s : State) : Host.Outcome State Fault Refusal :=
  .next (blockWriteStage .startClockDt 0 { s with mirror := encodeDT s.mirror.clearCh s.dtIn })

/-! ## START_CLOCK and STOP_CLOCK -/

/-- `M[0] <- M[0] & 0x7F`, then the seconds write as call `k` (R186). -/
def clockStartWrite (cmd : Instr) (k : Nat) (s : State) : State :=
  secondsWriteStage cmd k { s with mirror := s.mirror.clearCh }

/-- `clock_start()` as the end of a command (R186), its calls numbered from `k`. The write is always issued. -/
def clockStart (cmd : Instr) (k : Nat) (s : State) : State := blockRead cmd k (clockStartWrite cmd (k + 5)) s

/-- START_CLOCK (R186). -/
def execStartClock (s : State) : Host.Outcome State Fault Refusal := .next (clockStart .startClock 0 s)

/-- `M[0] <- M[0] | 0x80`, then the seconds write (R187). -/
def clockStopWrite (s : State) : State := secondsWriteStage .stopClock 5 { s with mirror := s.mirror.setCh }

/-- STOP_CLOCK (R187). -/
def execStopClock (s : State) : Host.Outcome State Fault Refusal := .next (blockRead .stopClock 0 clockStopWrite s)

/-! ## START_SQW -/

/-- `if M[0][7] = 1: clock_start()`, then finish (R188). The clock start's calls are numbered from 1 (log 6). -/
def startIfHalted (rate : BitVec 2) (s : State) : State :=
  if s.mirror.ch then clockStart (.startSqw rate) 1 s else finish .success s

/-- The control write of M[7] as call 0, then the clock start where the clock is halted (R188). -/
def controlWriteStage (rate : BitVec 2) (s : State) : State :=
  registerWrite (.startSqw rate) 0 [s.mirror.ctl] controlAddress (startIfHalted rate) s

/-- The body of START_SQW (R188). The comparison reads the mirror, and M[7] is updated before the control write. -/
def startSquareWave (rate : BitVec 2) (s : State) : State :=
  if !s.mirror.ch && s.mirror.sqwe && s.mirror.rs == rate then finish .success s
  else if !s.mirror.sqwe || s.mirror.rs != rate then
    controlWriteStage rate { s with mirror := s.mirror.setSquareWave rate }
  else startIfHalted rate s

/-- START_SQW (R188). -/
def execStartSqw (rate : BitVec 2) (s : State) : Host.Outcome State Fault Refusal := .next (startSquareWave rate s)

/-! ## Going on after a delayed answer -/

/-- The stage of command `cmd` that waits for the answer to its call `k`; none where `cmd` waits at no such call.
One line for each waiting point of R180 to R188. -/
def waitingStage (cmd : Instr) (k : Nat) : Option (State → State) :=
  match cmd, k with
  | .init, 0 => some setAddrStage
  | .init, 1 => some windowBeginStage
  | .readAll, 2 => some (sendPointerStage .readAll 2 (finish .success))
  | .readAll, 3 => some (receiveStage .readAll 3 (finish .success))
  | .readDt, 2 => some (sendPointerStage .readDt 2 publishDatetime)
  | .readDt, 3 => some (receiveStage .readDt 3 publishDatetime)
  | .writeDt, 0 => some (blockWriteStage .writeDt 0)
  | .startClockDt, 0 => some (blockWriteStage .startClockDt 0)
  | .startClock, 2 => some (sendPointerStage .startClock 2 (clockStartWrite .startClock 5))
  | .startClock, 3 => some (receiveStage .startClock 3 (clockStartWrite .startClock 5))
  | .startClock, 5 => some (secondsWriteStage .startClock 5)
  | .stopClock, 2 => some (sendPointerStage .stopClock 2 clockStopWrite)
  | .stopClock, 3 => some (receiveStage .stopClock 3 clockStopWrite)
  | .stopClock, 5 => some (secondsWriteStage .stopClock 5)
  | .startSqw r, 0 => some (controlWriteStage r)
  | .startSqw r, 3 => some (sendPointerStage (.startSqw r) 3 (clockStartWrite (.startSqw r) 6))
  | .startSqw r, 4 => some (receiveStage (.startSqw r) 4 (clockStartWrite (.startSqw r) 6))
  | .startSqw r, 6 => some (secondsWriteStage (.startSqw r) 6)
  | _, _ => none

/-- A command in progress goes on at the call it waits for (R21: it runs to completion). -/
def resume (cmd : Instr) (k : Nat) (s : State) : Host.Outcome State Fault Refusal :=
  match waitingStage cmd k with
  | some stage => .next (stage s)
  | none => .fault .phaseOutsideSequence

end Sys2Proof.Machine
end

