-- ==== Sys2Proof/Machine/Dispatch.lean ====
section
/-! DEFINITION. One arm for each command of the opcode table. -/

namespace Sys2Proof.Machine

def exec (i : Instr) (s : State) : Host.Outcome State Fault Refusal :=
  match i with
  | .bcdDec imm => Sys2Proof.Machine.execBcdDec imm s
  | .bcdEnc imm => Sys2Proof.Machine.execBcdEnc imm s
  | .mirRd a => Sys2Proof.Machine.execMirRd a s
  | .mirWr a imm => Sys2Proof.Machine.execMirWr a imm s
  | .dtDecode => Sys2Proof.Machine.execDtDecode s
  | .dtEncode => Sys2Proof.Machine.execDtEncode s
  | .clkEnable => Sys2Proof.Machine.execClkEnable s
  | .clkDisable => Sys2Proof.Machine.execClkDisable s
  | .sqwRateSet rate => Sys2Proof.Machine.execSqwRateSet rate s
  | .sqwEnSet enable => Sys2Proof.Machine.execSqwEnSet enable s
  | .outSet level => Sys2Proof.Machine.execOutSet level s
  | .init => Sys2Proof.Machine.execInit s
  | .readAll => Sys2Proof.Machine.execReadAll s
  | .readDt => Sys2Proof.Machine.execReadDt s
  | .writeDt => Sys2Proof.Machine.execWriteDt s
  | .startClockDt => Sys2Proof.Machine.execStartClockDt s
  | .startClock => Sys2Proof.Machine.execStartClock s
  | .stopClock => Sys2Proof.Machine.execStopClock s
  | .startSqw rate => Sys2Proof.Machine.execStartSqw rate s

end Sys2Proof.Machine
end

