-- ==== Sys2Proof/Machine/Step.lean ====
section
/-! DEFINITION. One step of the machine: a command in progress goes on, or the first presented command is accepted and
run, or nothing happens (10_state.md R20, R21, R33). -/

namespace Sys2Proof.Machine

/-- Take the first presented word off the port: it is decoded before any effect (60_exceptions.md R224), a command is
accepted and run, and an illegal word takes the ILLEGAL outcome (R222). -/
def runPresented (c : Command) (rest : List Command) (s : State) : Host.Outcome State Fault Refusal :=
  match decode c.word with
  | .ok i => exec i (s.accept c rest)
  | .error _ => .next (takeIllegal (s.discardWord rest))

/-- One step. While a command is in progress the port's commands are held (R21). With none presented the core does
nothing (R20, log 13). -/
def step (s : State) : Host.Outcome State Fault Refusal :=
  match s.phase with
  | .busy cmd k => resume cmd k s
  | .idle =>
    match s.pending with
    | [] => .next s
    | c :: rest => runPresented c rest s

/-- `s` with the word placed on the command port ahead of what is presented there, and the core ready to accept it
(log 12). The DT_IN bundle beside it is the one `s` holds. -/
def State.withFetchWord (s : State) (nbits w : Nat) : State :=
  { s with phase := .idle, pending := ⟨BitVec.ofNat 16 (w % 2 ^ nbits), s.dtIn⟩ :: s.pending }

end Sys2Proof.Machine
end

