-- ==== Sys2Proof/Safety.lean ====
section
/-! DEFINITION. The terms that statements about the core use: which commands touch what (10_state.md R23), which
Datetimes are valid (42_mapper.md R147), which transport calls the core may make (20_memory.md R58, R62 to R68), the
event sequences of R191, and the invariants of the step. A safe state is one that meets `State.phaseInv`: from it a
step never stops. -/

namespace Sys2Proof.Machine

/-! ## Commands -/

/-- The commands that make no transport call: "every other command" of R191. -/
def isLocal : Instr → Bool
  | .bcdDec _ | .bcdEnc _ | .mirRd _ | .mirWr _ _ | .dtDecode | .dtEncode
  | .clkEnable | .clkDisable | .sqwRateSet _ | .sqwEnSet _ | .outSet _ => true
  | .init | .readAll | .readDt | .writeDt | .startClockDt | .startClock | .stopClock | .startSqw _ => false

/-- The commands that change only the mirror (70_reset_and_hazards.md R254). -/
def changesOnlyMirror : Instr → Bool
  | .mirWr _ _ | .dtEncode | .clkEnable | .clkDisable | .sqwRateSet _ | .sqwEnSet _ | .outSet _ => true
  | .bcdDec _ | .bcdEnc _ | .mirRd _ | .dtDecode
  | .init | .readAll | .readDt | .writeDt | .startClockDt | .startClock | .stopClock | .startSqw _ => false

/-- The mirror bytes a command writes, by index: the `w` and `b` entries of the table of R23. -/
def mirrorWrites : Instr → List (BitVec 3)
  | .bcdDec _ | .bcdEnc _ | .mirRd _ | .dtDecode | .init => []
  | .mirWr a _ => [a]
  | .dtEncode | .writeDt | .startClockDt => [0, 1, 2, 3, 4, 5, 6]
  | .clkEnable | .clkDisable => [0]
  | .sqwRateSet _ | .sqwEnSet _ | .outSet _ => [7]
  | .readAll | .readDt | .startClock | .stopClock | .startSqw _ => [0, 1, 2, 3, 4, 5, 6, 7]

/-- The command indices at which a command waits for an answer: the places of its result-returning calls in its
sequence (R33, R180 to R188, log 6). -/
def waitPoints : Instr → List Nat
  | .init => [0, 1]
  | .readAll | .readDt => [2, 3]
  | .writeDt | .startClockDt => [0]
  | .startClock | .stopClock => [2, 3, 5]
  | .startSqw _ => [0, 3, 4, 6]
  | .bcdDec _ | .bcdEnc _ | .mirRd _ | .mirWr _ _ | .dtDecode | .dtEncode
  | .clkEnable | .clkDisable | .sqwRateSet _ | .sqwEnSet _ | .outSet _ => []

/-! ## Values -/

/-- `b` is the packed BCD byte of `n`: tens in bits 7:4, units in bits 3:0 (R80). -/
def packs (b : Byte) (n : Nat) : Prop := bcdTens b = n / 10 ∧ bcdUnits b = n % 10

/-- Two bytes agree on bit `j`. -/
def sameBit (x y : Byte) (j : Nat) : Prop := x.getLsbD j = y.getLsbD j

/-- The calendar and minute and second ranges of a valid Datetime (R147). -/
def Datetime.inRange (d : Datetime) : Bool :=
  decide (2000 ≤ d.year.toNat ∧ d.year.toNat ≤ 2099 ∧ 1 ≤ d.month.toNat ∧ d.month.toNat ≤ 12 ∧ 1 ≤ d.day.toNat
    ∧ d.day.toNat ≤ 31 ∧ d.minute.toNat ≤ 59 ∧ d.second.toNat ≤ 59 ∧ 1 ≤ d.weekday.toNat ∧ d.weekday.toNat ≤ 7)

/-- A valid Datetime in 24-hour mode, as R147 reads "valid" (92_eei_decisions.md D36). -/
def Datetime.valid24 (d : Datetime) : Bool :=
  d.inRange && decide (d.hour.toNat ≤ 23) && !d.mode12h && !d.pm

/-- In range, in 12-hour mode, with an hour of 1 to 12 and either pm (R147). -/
def Datetime.valid12 (d : Datetime) : Bool :=
  d.inRange && decide (1 ≤ d.hour.toNat ∧ d.hour.toNat ≤ 12) && d.mode12h

/-- The normalisation contract of R145: time fields and year wrap, calendar fields clamp. The hour wraps by its mode. -/
def Datetime.normalised (d : Datetime) : Datetime :=
  { d with
    second := BitVec.ofNat 8 (d.second.toNat % 60)
    minute := BitVec.ofNat 8 (d.minute.toNat % 60)
    hour := BitVec.ofNat 8 (d.hour.toNat % (if d.mode12h then 12 else 24))
    year := BitVec.ofNat 16 (d.year.toNat % 100)
    day := BitVec.ofNat 8 (clamp d.day.toNat 1 31)
    month := BitVec.ofNat 8 (clamp d.month.toNat 1 12)
    weekday := BitVec.ofNat 8 (clamp d.weekday.toNat 1 7) }

/-- RESULT of a command whose last answer is `r`, every earlier one being OK (R11, R189). -/
def resultOf : CallResult → Result
  | .ok => .success
  | .err c => .busFail c

/-! ## Environments and events -/

/-- Every answer the environment has ready is there at once: no call is left waiting (R259's premise at this step). -/
def State.prompt (s : State) : Bool := s.env.replies.all Option.isSome

/-- The same state in an environment that answers without delay, with the same answers in the same order. -/
def State.withoutDelays (s : State) : State :=
  { s with env := { s.env with replies := s.env.replies.filter Option.isSome } }

/-- The failure code an event carries, if its call was answered ERR(c) (R61). -/
def Event.failure (e : Event) : Option TransportCode :=
  match e.answer with
  | .result (.err c) => some c
  | .result .ok | .none | .flag _ | .received _ => none

/-- The events are restores of the stop-condition flag (R189's one exception). -/
def onlyRestores (es : List Event) : Prop := ∀ e ∈ es, ∃ b, e = ⟨.setStop b, .none⟩

/-- The register writes of a trace: payload and prefix of each sendPrefixed (R12, 92_eei_decisions.md D35). -/
def registerWrites (es : List Event) : List (List Byte × List Byte) :=
  es.filterMap fun e =>
    match e.call with
    | .sendPrefixed payload pfx _ => some (payload, pfx)
    | .setAddr _ | .windowBegin _ _ _ | .getStop | .setStop _ | .setRepeatedStart | .send _ | .receive _ => none

/-- The two calls that open a block read, with the caller's stop flag `f` (R180, R191). -/
def openReadEvents (f : Bool) : List Event := [⟨.getStop, .flag f⟩, ⟨.setRepeatedStart, .none⟩]

/-- The events of a successful block read (R191). -/
def readEvents (f : Bool) (b : Block) : List Event :=
  openReadEvents f ++ [⟨.send [0x00], .result .ok⟩, ⟨.receive 8, .received b⟩, ⟨.setStop f, .none⟩]

/-- The events of a block read whose pointer send fails (R180, vector T5). -/
def sendFailedEvents (f : Bool) (c : TransportCode) : List Event :=
  openReadEvents f ++ [⟨.send [0x00], .result (.err c)⟩, ⟨.setStop f, .none⟩]

/-- The events of a block read whose receive fails (R180, vector T6). -/
def receiveFailedEvents (f : Bool) (c : TransportCode) : List Event :=
  openReadEvents f ++ [⟨.send [0x00], .result .ok⟩, ⟨.receive 8, .result (.err c)⟩, ⟨.setStop f, .none⟩]

/-- The event of a prefixed write with a stop condition (R58, R68). -/
def writeEvent (payload : List Byte) (reg : Byte) (r : CallResult) : Event :=
  ⟨.sendPrefixed payload [reg] true, .result r⟩

/-- From `s`, after the events `pre`, a block read failed and ended the command in `t` (R180): the mirror is kept
where the send failed, and is any value where the receive failed. -/
def BlockReadFailed (s t : State) (pre : List Event) : Prop :=
  ∃ f c,
    (t.env.trace = s.env.trace ++ pre ++ sendFailedEvents f c ∧
      t = { s with savedStop := f, mv := false, result := .busFail c, phase := .idle, env := t.env }) ∨
    (t.env.trace = s.env.trace ++ pre ++ receiveFailedEvents f c ∧
      t = { s with mirror := t.mirror, savedStop := f, mv := false, result := .busFail c, phase := .idle, env := t.env })

/-- From `s`, after the events `pre`, a block read succeeded, M[0] became `newSec` of the byte read, and the seconds
write of that byte, answered `r`, ended the command in `t` (R186, R187). -/
def SecondsRewritten (s t : State) (pre : List Event) (newSec : Byte → Byte) : Prop :=
  ∃ f b r,
    t.env.trace = s.env.trace ++ pre ++ readEvents f b ++ [writeEvent [newSec b[0]] 0x00 r] ∧
    t = { s with
      mirror := { Mirror.ofBlock b with sec := newSec b[0] }, savedStop := f, mv := decide (r = .ok)
      result := resultOf r, phase := .idle, env := t.env }

/-! ## Invariants -/

/-- The phase is IDLE, or a command in progress that waits at one of its calls (R33). -/
def State.phaseInv (s : State) : Prop :=
  match s.phase with
  | .idle => True
  | .busy cmd k => k ∈ waitPoints cmd

/-- After a command that failed, and until another finishes, the mirror is not trusted (R25, R189, R226). -/
def State.trustInv (s : State) : Prop := s.phase = .idle → ∀ c, s.result = .busFail c → s.mv = false

/-- A transport call with arguments the core may use (R58, R60, R62 to R68). -/
def Call.allowed : Call → Bool
  | .setAddr a => a == 0x68
  | .windowBegin mx cap mn => mx == 0x3F && cap == 56 && mn == 0x08
  | .getStop | .setStop _ | .setRepeatedStart => true
  | .send bytes => bytes == [0x00]
  | .receive n => n == 8
  | .sendPrefixed payload pfx stop =>
    stop && (pfx == [0x00] && (payload.length == 8 || payload.length == 1) || pfx == [0x07] && payload.length == 1)

/-- Every transport call so far is one the core may make (R58, R60). -/
def State.transferInv (s : State) : Prop := ∀ e ∈ s.env.trace, e.call.allowed = true

/-- The newest events are the repeated start and the answered pointer send, nothing after them; events newest first. -/
def pointerJustSent (rev : List Event) : Bool :=
  rev.take 2 == [⟨.send [0x00], .result .ok⟩, ⟨.setRepeatedStart, .none⟩]

/-- A receive call. -/
def Call.isReceive : Call → Bool
  | .receive _ => true
  | .setAddr _ | .windowBegin _ _ _ | .getStop | .setStop _ | .setRepeatedStart | .send _ | .sendPrefixed _ _ _ => false

/-- Every receive comes right after the pointer send under a repeated start (R59, R73, R258); events newest first. -/
def readsUnsplit : List Event → Bool
  | [] => true
  | e :: older => (!e.call.isReceive || pointerJustSent older) && readsUnsplit older

/-- The command in progress waits for the answer to its receive (R180, log 6). -/
def Phase.awaitsReceive : Phase → Bool
  | .busy .readAll 3 | .busy .readDt 3 | .busy .startClock 3 | .busy .stopClock 3 | .busy (.startSqw _) 4 => true
  | _ => false

/-- The command in progress waits for the answer to its pointer send (R180, log 6). -/
def Phase.awaitsPointerSend : Phase → Bool
  | .busy .readAll 2 | .busy .readDt 2 | .busy .startClock 2 | .busy .stopClock 2 | .busy (.startSqw _) 3 => true
  | _ => false

/-- No block read so far is split, and one in progress is not either: while its pointer send waits the repeated start
is the newest event, and while its receive waits the pointer send is (R258). -/
def State.unsplitInv (s : State) : Prop :=
  readsUnsplit s.env.trace.reverse = true ∧
    (s.phase.awaitsPointerSend = true → s.env.trace.getLast? = some ⟨.setRepeatedStart, .none⟩) ∧
    (s.phase.awaitsReceive = true → pointerJustSent s.env.trace.reverse = true)

end Sys2Proof.Machine
end

