-- ==== Sys2Proof/Certificates/Slice0/Obligations.lean ====
section
/-! DEFINITION. The statements for the provers. Each docstring names the rule of spec/ it formalises. The opaque
constants of Config occur in them only as what an open value is: no statement rests on a value of one.
Where a statement speaks of the environment's answer lists, of delays (`prompt`), of the trace or of the command port's
list, their form is the model's choice (log 4, log 5, log 11, log 12); what the core does with them is the rule's. -/

open Sys2Proof Sys2Proof.Machine

/-! ## Encoding and decoding (30_encoding.md) -/

/-- Words of R98 and of vector table L2-H, one of each family, decode to the commands they stand for. -/
def Obligations.CommandWordsDecodeAsWritten : Prop :=
  decode 0x08FF = .ok (.bcdDec 0xFF) ∧ decode 0x103B = .ok (.bcdEnc 59) ∧ decode 0x1F00 = .ok (.mirRd 7) ∧
  decode 0x27FF = .ok (.mirWr 7 0xFF) ∧ decode 0x2800 = .ok .dtDecode ∧ decode 0x3000 = .ok .dtEncode ∧
  decode 0x4803 = .ok (.sqwRateSet 3) ∧ decode 0x5801 = .ok (.outSet true) ∧ decode 0x8000 = .ok .init ∧
  decode 0x9800 = .ok .writeDt ∧ decode 0xB803 = .ok (.startSqw 3) ∧ decode 0xFFFF = .error (.reservedOp 0x1F)

/-- Decoding the word of any command, with any operands, gives that command back (R90, R91, R92). -/
def Obligations.DecodeOfEncodeIsIdentity : Prop := ∀ i : Instr, decode (encode i) = .ok i

/-- A command has one word: what decodes to it is its encoding (R93, R98, R99). -/
def Obligations.EncodeOfDecodeIsIdentity : Prop := ∀ (w : CommandWord) (i : Instr), decode w = .ok i → encode i = w

/-- R93: the rows of opcode_table.json that accept a word are exactly the row of the command it decodes to, and no row
accepts a word that does not decode. -/
def Obligations.AcceptedWordsMatchExactlyTheirTableRow : Prop :=
  ∀ w : CommandWord, (opcodeTable.filter (·.accepts w)).map OpcodeRow.mnemonic =
    match decode w with
    | .ok i => [i.mnemonic]
    | .error _ => []

/-- R94 and R222 (the spec's decision D2): a word is illegal exactly when its op is reserved or a bit that must be 0 is not, and an illegal word
taken off the port writes ILLEGAL to RESULT, leaves PHASE IDLE, and changes nothing else. -/
def Obligations.IllegalWordsWriteOnlyResult : Prop :=
  ∀ (s : State) (c : Command) (rest : List Command), s.phase = .idle → s.pending = c :: rest →
    let f := Fields.ofWord c.word
    let reserved := f.op = 0x00 ∨ (0x0C ≤ f.op.toNat ∧ f.op.toNat ≤ 0x0F) ∨ 0x18 ≤ f.op.toNat
    let nonzero := ∃ o, Opcode.ofBits f.op = some o ∧
      ((o.takesIndex = false ∧ f.a ≠ 0) ∨ f.imm &&& ~~~ o.immOperandBits ≠ 0)
    ((∃ e, decode c.word = .error e) ↔ (reserved ∨ nonzero)) ∧
    (reserved ∨ nonzero →
      step s = .next { s with result := .illegal, phase := .idle, pending := rest })

/-! ## The step (10_state.md R20, R21, R33) -/

/-- R21: an idle core accepts the first presented command, samples its DT_IN and runs the command its word decodes to. -/
def Obligations.StepRunsDecodedCommand : Prop :=
  ∀ (s : State) (c : Command) (rest : List Command) (i : Instr), s.phase = .idle → s.pending = c :: rest →
    decode c.word = .ok i → step s = exec i { s with dtIn := c.dtIn, pending := rest }

/-- R20: the core does nothing between commands (the step with no command presented is the model's choice, log 13). -/
def Obligations.StepWithNothingPresentedChangesNothing : Prop :=
  ∀ s : State, s.phase = .idle → s.pending = [] → step s = .next s

/-- R21, R70: commands are taken in the order presented, one at a time; while one is in progress the rest are held.
R31: the DT_IN of an accepted command is sampled, and stays as sampled until another is accepted. -/
def Obligations.PresentedCommandsAreHeldAndTakenInOrder : Prop :=
  ∀ s t : State, step s = .next t →
    (∀ cmd k, s.phase = .busy cmd k → t.pending = s.pending ∧ t.dtIn = s.dtIn) ∧
    (s.phase = .idle →
      (s.pending = [] ∧ t.pending = [] ∧ t.dtIn = s.dtIn) ∨
      ∃ c, s.pending = c :: t.pending ∧
        (((∃ i, decode c.word = .ok i) ∧ t.dtIn = c.dtIn) ∨ ((∃ e, decode c.word = .error e) ∧ t.dtIn = s.dtIn)))

/-- R21, R33, U10: a command whose call is not answered at this step goes on waiting at that call, and nothing else
changes (that the environment then has one delay fewer is the model's, log 5). -/
def Obligations.UnansweredCallKeepsCommandWaiting : Prop :=
  ∀ (s : State) (cmd : Instr) (k : Nat) (later : List (Option CallResult)),
    s.phase = .busy cmd k → k ∈ waitPoints cmd → s.env.replies = none :: later →
    step s = .next { s with env := { s.env with replies := later } }

/-- The one stop of the machine (the model's own, log 15): a phase that names no waiting point of its command. -/
def Obligations.PhaseOutsideSequenceFaults : Prop :=
  ∀ (s : State) (cmd : Instr) (k : Nat), s.phase = .busy cmd k → k ∉ waitPoints cmd →
    step s = .fault .phaseOutsideSequence

/-- R21, R180 to R188, R259: delays of answers do not change what a command does. Run in an environment that delays
some answers, a command ends, after some further steps, in the state it reaches when the same answers come at once. -/
def Obligations.DelayedAnswersDoNotChangeTheOutcome : Prop :=
  ∀ (i : Instr) (s u : State), exec i s.withoutDelays = .next u →
    ∃ (t₀ t : State) (n : Nat), exec i s = .next t₀ ∧ core.run n t₀ = .next t ∧ t.phase = .idle ∧ t.withoutDelays = u

/-! ## Reset and outputs -/

/-- R250 (the spec's decisions D5 and D6), for every mirror `m` and SAVED_STOP `b`, which R250 leaves unspecified. The empty command port and the model's
environment fields are the model's choice (log 3, log 4, log 12). -/
def Obligations.ResetLeavesTheSpecifiedValues : Prop :=
  (∀ (m : Mirror) (b : Bool), let s := State.resetWith m b
    s.mirror = m ∧ s.mv = false ∧ s.result = .success ∧ s.codecOut = 0x00 ∧ s.dataOut = 0x00 ∧
    s.dtOut = ⟨0, 0, 0, 0, 0, 0, 0, false, false⟩ ∧ s.savedStop = b ∧ s.phase = .idle ∧ s.ready = true ∧
    s.mvO = false ∧ s.env.trace = []) ∧
  ∃ m b, State.reset = State.resetWith m b

/-- R121 with R122 to R127: after a MIR_WR the status outputs are the named bits of the byte written. -/
def Obligations.StatusOutputsFollowTheMirror : Prop :=
  ∀ (s : State) (v : Byte),
    (∃ t, exec (.mirWr 7 v) s = .next t ∧ t.sqweO = v.getLsbD 4 ∧ t.rateO.toNat = v.toNat % 4 ∧
      t.outO = decide (128 ≤ v.toNat) ∧ (t.pudO = true ↔ v = 0x03)) ∧
    (∃ t, exec (.mirWr 0 v) s = .next t ∧ t.runO = decide (v.toNat < 128)) ∧
    (∃ t, exec (.mirWr 2 v) s = .next t ∧ t.h12O = v.getLsbD 6)

/-- R21, R128: the host samples the outputs as they stand while READY = 1, and nothing while a command is in progress. -/
def Obligations.OutputsAreSampledOnlyWhenReady : Prop :=
  ∀ s : State, (s.phase = .idle → s.ready = true ∧ s.sample = some s.outputs ∧ s.outputs.mvO = s.mv ∧
      s.outputs.result = s.result ∧ s.outputs.codecOut = s.codecOut ∧ s.outputs.dataOut = s.dataOut ∧
      s.outputs.dtOut = s.dtOut) ∧
    ∀ cmd k, s.phase = .busy cmd k → s.ready = false ∧ s.sample = none

/-! ## Codec (40_codec.md) -/

/-- R110, R111 (for bytes that are not BCD the spec's decision D9): BCD_DEC of any byte gives `byte - 6*(byte >> 4)`, which is ten times the high nibble plus the low one. -/
def Obligations.BcdDecWritesTheFormulaValue : Prop :=
  ∀ (b : Byte) (s : State), ∃ v : Byte,
    exec (.bcdDec b) s = .next { s with codecOut := v, result := .success, phase := .idle } ∧
    (v.toNat : Int) = (b.toNat : Int) - 6 * (b.toNat / 16 : Nat) ∧
    v.toNat = 10 * bcdTens b + bcdUnits b ∧ v.toNat ≤ 165

/-- R112, R113: BCD_ENC of 0 to 99 gives `value + 6*(value / 10)`, the packed BCD byte; above 99 the open ENC_OOR. -/
def Obligations.BcdEncWritesPackedBcd : Prop :=
  ∀ (v : Byte) (s : State), ∃ b : Byte,
    exec (.bcdEnc v) s = .next { s with codecOut := b, result := .success, phase := .idle } ∧
    (v.toNat ≤ 99 → b.toNat = v.toNat + 6 * (v.toNat / 10) ∧ packs b v.toNat) ∧
    (99 < v.toNat → b = Config.encOor v)

/-- R114, items 1 to 3: the codec's round trips on valid values, and that decoding is not injective. -/
def Obligations.BcdCodecRoundTrips : Prop :=
  (∀ v : Byte, v.toNat ≤ 99 → decodeBcd (encodeBcd v) = v) ∧
  (∀ b : Byte, isBcd b = true → encodeBcd (decodeBcd b) = b) ∧ decodeBcd 0x0A = 10 ∧ decodeBcd 0x10 = 10

/-! ## Mirror access (41_mirror.md) -/

/-- R120: MIR_RD copies byte `a` of the mirror, in the order of R22, to DATA_OUT. -/
def Obligations.MirRdReadsTheIndexedByte : Prop :=
  ∀ (a : BitVec 3) (s : State), ∃ v : Byte, s.mirror.toList[a.toNat]? = some v ∧
    exec (.mirRd a) s = .next { s with dataOut := v, result := .success, phase := .idle }

/-- R121: MIR_WR replaces byte `a` of the mirror and no other; MV, the other registers and the transport stay. -/
def Obligations.MirWrReplacesOnlyTheIndexedByte : Prop :=
  ∀ (a : BitVec 3) (v : Byte) (s : State), ∃ m : Mirror, m.toList = s.mirror.toList.set a.toNat v ∧
    exec (.mirWr a v) s = .next { s with mirror := m, result := .success, phase := .idle }

/-! ## Datetime mapper (42_mapper.md) -/

/-- R140, R141 (pm in 24-hour mode and the century are the spec's decisions D11 and D12): the Datetime that DT_DECODE writes, and that it writes nothing else but RESULT. -/
def Obligations.DtDecodeWritesTheDecodedDatetime : Prop :=
  ∀ s : State, ∃ d : Datetime,
    exec .dtDecode s = .next { s with dtOut := d, result := .success, phase := .idle } ∧
    let m := s.mirror
    d.second.toNat = 10 * bcdTens (m.sec &&& 0x7F) + bcdUnits m.sec ∧
    d.minute.toNat = 10 * bcdTens m.min + bcdUnits m.min ∧
    d.mode12h = m.hour.getLsbD 6 ∧ d.pm = (m.hour.getLsbD 6 && m.hour.getLsbD 5) ∧
    (m.hour.getLsbD 6 = true → d.hour.toNat = 10 * bcdTens (m.hour &&& 0x9F) + bcdUnits m.hour) ∧
    (m.hour.getLsbD 6 = false → d.hour.toNat = 10 * bcdTens m.hour + bcdUnits m.hour) ∧
    d.day.toNat = 10 * bcdTens m.day + bcdUnits m.day ∧
    d.month.toNat = 10 * bcdTens m.mon + bcdUnits m.mon ∧
    d.year.toNat = 2000 + 10 * bcdTens m.year + bcdUnits m.year ∧ d.weekday = m.wday

/-- R142 to R144, with the formats R81 to R88: the mirror that DT_ENCODE leaves, and that it writes nothing else but
RESULT. CH and M[7] are kept; time fields wrap and calendar fields clamp. -/
def Obligations.DtEncodeWritesNormalisedBcd : Prop :=
  ∀ s : State, ∃ m : Mirror,
    exec .dtEncode s = .next { s with mirror := m, result := .success, phase := .idle } ∧
    let d := s.dtIn
    sameBit m.sec s.mirror.sec 7 ∧ packs (m.sec &&& 0x7F) (d.second.toNat % 60) ∧
    packs m.min (d.minute.toNat % 60) ∧
    (d.mode12h = true → m.hour.getLsbD 7 = false ∧ m.hour.getLsbD 6 = true ∧ m.hour.getLsbD 5 = d.pm ∧
      packs (m.hour &&& 0x1F) (if d.hour.toNat % 12 = 0 then 12 else d.hour.toNat % 12)) ∧
    (d.mode12h = false → packs m.hour (d.hour.toNat % 24)) ∧
    m.wday.toNat = min (max d.weekday.toNat 1) 7 ∧ packs m.day (min (max d.day.toNat 1) 31) ∧
    packs m.mon (min (max d.month.toNat 1) 12) ∧ packs m.year (d.year.toNat % 100) ∧ m.ctl = s.mirror.ctl

/-- R144, last sentence, with the register formats R81 to R88: after DT_ENCODE every timekeeping byte has its format. -/
def Obligations.EncodedBytesHaveTheRegisterFormats : Prop :=
  ∀ s : State, ∃ t, exec .dtEncode s = .next t ∧ t.mirror.formatted = true

/-- R146: the three laws of the encode path. -/
def Obligations.EncodeKeepsClockHaltAndNormalises : Prop :=
  ∀ s : State, ∃ t, exec .dtEncode s = .next t ∧ t.runO = s.runO ∧
    (s.dtIn.mode12h = true → s.dtIn.hour = 0 ∨ s.dtIn.hour = 12 → packs (t.mirror.hour &&& 0x1F) 12) ∧
    (s.dtIn.day = 35 → packs t.mirror.day 31) ∧ (s.dtIn.month = 0 → packs t.mirror.mon 1) ∧
    (s.dtIn.second = 75 → packs (t.mirror.sec &&& 0x7F) 15)

/-- R147 (with the spec's reading of "valid", D36): DT_ENCODE then DT_DECODE gives a valid 24-hour Datetime back, and a 12-hour one of hours 1 to 12; a year
outside 2000 to 2099 or a pm in 24-hour mode does not come back, and hour 0 in 12-hour mode comes back as 12. -/
def Obligations.EncodeThenDecodeRoundTrips : Prop :=
  ∀ s : State, ∃ t u, exec .dtEncode s = .next t ∧ exec .dtDecode t = .next u ∧
    (s.dtIn.valid24 = true → u.dtOut = s.dtIn) ∧ (s.dtIn.valid12 = true → u.dtOut = s.dtIn) ∧
    (s.dtIn.year.toNat < 2000 ∨ 2099 < s.dtIn.year.toNat → u.dtOut ≠ s.dtIn) ∧
    (s.dtIn.mode12h = false → u.dtOut.pm = false) ∧
    (s.dtIn.mode12h = true → s.dtIn.hour = 0 → u.dtOut.hour = 12)

/-- R145: no Datetime is rejected, and encoding one is encoding its wrapped and clamped normal form. -/
def Obligations.OutOfRangeDatetimesAreNormalisedNotRejected : Prop :=
  ∀ s : State, ∃ m : Mirror,
    exec .dtEncode s = .next { s with mirror := m, result := .success, phase := .idle } ∧
    exec .dtEncode { s with dtIn := s.dtIn.normalised } =
      .next { s with dtIn := s.dtIn.normalised, mirror := m, result := .success, phase := .idle }

/-! ## Configuration controller (43_config.md) -/

/-- R160, R161: CLK_ENABLE and CLK_DISABLE set RUN_O by bit 7 of M[0] alone; all else but RESULT stays. -/
def Obligations.ClockBitCommandsChangeOnlyClockHalt : Prop :=
  ∀ s : State, ∃ x y : Byte,
    exec .clkEnable s = .next { s with mirror := { s.mirror with sec := x }, result := .success, phase := .idle } ∧
    exec .clkDisable s = .next { s with mirror := { s.mirror with sec := y }, result := .success, phase := .idle } ∧
    x.getLsbD 7 = false ∧ y.getLsbD 7 = true ∧ ∀ j < 7, sameBit x s.mirror.sec j ∧ sameBit y s.mirror.sec j

/-- R162 to R165: SQW_RATE_SET, SQW_EN_SET and OUT_SET change only their own bits of M[7]; all else but RESULT stays. -/
def Obligations.ControlBitCommandsChangeOnlyTheirBits : Prop :=
  ∀ (s : State) (r : BitVec 2) (b : Bool), ∃ x y z : Byte,
    exec (.sqwRateSet r) s = .next { s with mirror := { s.mirror with ctl := x }, result := .success, phase := .idle } ∧
    exec (.sqwEnSet b) s = .next { s with mirror := { s.mirror with ctl := y }, result := .success, phase := .idle } ∧
    exec (.outSet b) s = .next { s with mirror := { s.mirror with ctl := z }, result := .success, phase := .idle } ∧
    x.toNat % 4 = r.toNat ∧ (∀ j, 2 ≤ j → sameBit x s.mirror.ctl j) ∧
    y.getLsbD 4 = b ∧ (∀ j, j ≠ 4 → sameBit y s.mirror.ctl j) ∧
    z.getLsbD 7 = b ∧ (∀ j, j ≠ 7 → sameBit z s.mirror.ctl j)

/-! ## Frames over all commands -/

/-- R26, R76, R165, R191: a command outside the transaction sequencer succeeds at once, makes no transport call and
leaves the environment, MV, SAVED_STOP and the command port as they are. -/
def Obligations.LocalCommandsSucceedWithoutTransport : Prop :=
  ∀ (i : Instr) (s : State), isLocal i = true → ∃ t, exec i s = .next t ∧ t.result = .success ∧ t.phase = .idle ∧
    t.env = s.env ∧ t.mv = s.mv ∧ t.savedStop = s.savedStop ∧ t.dtIn = s.dtIn ∧ t.pending = s.pending

/-- The table of R23: a mirror byte that a command does not write is unchanged; DT_ENCODE and WRITE_DT keep bit 7 of
M[0] too. It holds of a command left waiting as of one that ended. -/
def Obligations.MirrorBytesOutsideTheWriteTableStay : Prop :=
  ∀ (i : Instr) (s t : State), exec i s = .next t →
    (∀ a, a ∉ mirrorWrites i → t.mirror.get a = s.mirror.get a) ∧
    (i = .dtEncode ∨ i = .writeDt → sameBit t.mirror.sec s.mirror.sec 7)

/-- R27, R28, R29, R31: CODEC_OUT is written by the codec commands, DATA_OUT by MIR_RD, DT_OUT by DT_DECODE and a READ_DT
that succeeds, and no command changes the sampled DT_IN or what is presented after it. -/
def Obligations.OutputRegistersAreWrittenOnlyByTheirCommands : Prop :=
  ∀ (i : Instr) (s t : State), exec i s = .next t →
    ((∀ b, i ≠ .bcdDec b ∧ i ≠ .bcdEnc b) → t.codecOut = s.codecOut) ∧
    ((∀ a, i ≠ .mirRd a) → t.dataOut = s.dataOut) ∧
    (i ≠ .dtDecode → (i = .readDt → t.phase ≠ .idle ∨ t.result ≠ .success) → t.dtOut = s.dtOut) ∧
    t.dtIn = s.dtIn ∧ t.pending = s.pending

/-- R25 and R32: no command's course depends on MV, nor on SAVED_STOP before it is written. -/
def Obligations.NoCommandReadsTrustBitOrOldSavedStop : Prop :=
  ∀ (i : Instr) (s t : State) (v : Bool), exec i s = .next t →
    (∃ t', exec i { s with mv := v } = .next t' ∧ t' = { t with mv := t'.mv }) ∧
    (∃ t', exec i { s with savedStop := v } = .next t' ∧ t' = { t with savedStop := t'.savedStop })

/-- R25: MV becomes 1 only in a step that receives a block, and 0 only in one that finishes with BUS_FAIL. Events are
only added to the trace. -/
def Obligations.TrustBitFollowsReadsAndFailures : Prop :=
  ∀ s t : State, step s = .next t → ∃ new, t.env.trace = s.env.trace ++ new ∧
    (t.mv = true → s.mv = true ∨ ∃ b, (⟨.receive 8, .received b⟩ : Event) ∈ new) ∧
    (t.mv = false → s.mv = false ∨ (t.phase = .idle ∧ ∃ c, t.result = .busFail c))

/-- R21, R189, R220, R224: answered without delay, every command runs to completion. Its result is SUCCESS if no call
failed; otherwise it is BUS_FAIL with the code of the first call that failed, MV is 0, and after that call the command
made no call but the restore of the stop-condition flag. -/
def Obligations.EveryCommandCompletesAndReportsItsFirstFailure : Prop :=
  ∀ (i : Instr) (s : State), s.prompt = true → ∃ t new, exec i s = .next t ∧ t.phase = .idle ∧
    t.env.trace = s.env.trace ++ new ∧
    ((t.result = .success ∧ ∀ e ∈ new, e.failure = none) ∨
     ∃ c before e after, new = before ++ e :: after ∧ (∀ x ∈ before, x.failure = none) ∧ e.failure = some c ∧
       onlyRestores after ∧ t.result = .busFail c ∧ t.mv = false)

/-! ## Transaction sequencer (44_transactions.md) -/

/-- R181: INIT makes its two calls in order, stops at the first failure, and touches nothing but RESULT, and MV on
failure. -/
def Obligations.InitSetsAddressThenWindow : Prop :=
  ∀ s : State, s.prompt = true → ∃ t, exec .init s = .next t ∧
    ((∃ c, t.env.trace = s.env.trace ++ [⟨.setAddr 0x68, .result (.err c)⟩] ∧
        t = { s with mv := false, result := .busFail c, phase := .idle, env := t.env }) ∨
     ∃ r, t.env.trace = s.env.trace ++ [⟨.setAddr 0x68, .result .ok⟩, ⟨.windowBegin 0x3F 56 0x08, .result r⟩] ∧
        t = { s with mv := s.mv && decide (r = .ok), result := resultOf r, phase := .idle, env := t.env })

/-- R180, R182: READ_ALL takes the chip's eight bytes verbatim and sets MV, or fails in its send or its receive. -/
def Obligations.ReadAllRefillsTheMirror : Prop :=
  ∀ s : State, s.prompt = true → ∃ t, exec .readAll s = .next t ∧
    (BlockReadFailed s t [] ∨
     ∃ f b, t.env.trace = s.env.trace ++ readEvents f b ∧
       t = { s with
         mirror := .ofBlock b, mv := true, savedStop := f, result := .success, phase := .idle, env := t.env })

/-- R183: READ_DT decodes the block it has just read; on failure DT_OUT is unchanged. -/
def Obligations.ReadDtDecodesTheFreshBlock : Prop :=
  ∀ s : State, s.prompt = true → ∃ t, exec .readDt s = .next t ∧
    (BlockReadFailed s t [] ∨
     ∃ f b, t.env.trace = s.env.trace ++ readEvents f b ∧
       t = { s with
         mirror := .ofBlock b, mv := true, dtOut := decodeDT (.ofBlock b), savedStop := f, result := .success
         phase := .idle, env := t.env })

/-- R184: WRITE_DT encodes DT_IN into the mirror and sends all eight bytes in one prefixed write. The mirror keeps the
encoded values whatever the answer. -/
def Obligations.WriteDtSendsTheEncodedBlock : Prop :=
  ∀ s : State, s.prompt = true → ∃ t r, exec .writeDt s = .next t ∧
    let m := encodeDT s.mirror s.dtIn
    t.env.trace = s.env.trace ++ [writeEvent [m.sec, m.min, m.hour, m.wday, m.day, m.mon, m.year, m.ctl] 0x00 r] ∧
    t = { s with mirror := m, mv := s.mv && decide (r = .ok), result := resultOf r, phase := .idle, env := t.env }

/-- R185: START_CLOCK_DT is WRITE_DT with CH clear in the byte sent and in the mirror, whatever the answer. -/
def Obligations.StartClockDtSendsTheBlockWithClockHaltClear : Prop :=
  ∀ s : State, s.prompt = true → ∃ t r, exec .startClockDt s = .next t ∧
    let m := { encodeDT s.mirror s.dtIn with sec := (encodeDT s.mirror s.dtIn).sec &&& 0x7F }
    t.env.trace = s.env.trace ++ [writeEvent [m.sec, m.min, m.hour, m.wday, m.day, m.mon, m.year, m.ctl] 0x00 r] ∧
    t = { s with mirror := m, mv := s.mv && decide (r = .ok), result := resultOf r, phase := .idle, env := t.env } ∧
    t.runO = true

/-- R186: START_CLOCK reads the block, clears CH in the byte read and writes the seconds byte back, always. -/
def Obligations.StartClockRewritesSecondsWithClockHaltClear : Prop :=
  ∀ s : State, s.prompt = true → ∃ t, exec .startClock s = .next t ∧
    (BlockReadFailed s t [] ∨ SecondsRewritten s t [] (· &&& 0x7F))

/-- R187: STOP_CLOCK reads the block, sets CH in the byte read and writes the seconds byte back, always. -/
def Obligations.StopClockRewritesSecondsWithClockHaltSet : Prop :=
  ∀ s : State, s.prompt = true → ∃ t, exec .stopClock s = .next t ∧
    (BlockReadFailed s t [] ∨ SecondsRewritten s t [] (· ||| 0x80))

/-- R188, the no-op case: with the clock running, the square wave enabled and the rate equal, START_SQW makes no call
and changes nothing but RESULT, whatever the environment. -/
def Obligations.StartSqwDoesNothingWhenAllMatches : Prop :=
  ∀ (r : BitVec 2) (s : State), s.mirror.sec.getLsbD 7 = false → s.mirror.ctl.getLsbD 4 = true →
    s.mirror.ctl.toNat % 4 = r.toNat →
    exec (.startSqw r) s = .next { s with result := .success, phase := .idle }

/-- R188, control write only: with the clock running and enable or rate differing, START_SQW makes one control write of
M[7] with SQWE set and RS = rate and the rest kept, and nothing else. -/
def Obligations.StartSqwWritesControlOnceWhenRunning : Prop :=
  ∀ (r : BitVec 2) (s : State), s.prompt = true → s.mirror.sec.getLsbD 7 = false →
    (s.mirror.ctl.getLsbD 4 = false ∨ s.mirror.ctl.toNat % 4 ≠ r.toNat) →
    ∃ t x a, exec (.startSqw r) s = .next t ∧
      x.getLsbD 4 = true ∧ x.toNat % 4 = r.toNat ∧ (∀ j, 2 ≤ j → j ≠ 4 → sameBit x s.mirror.ctl j) ∧
      t.env.trace = s.env.trace ++ [writeEvent [x] 0x07 a] ∧
      t = { s with
        mirror := { s.mirror with ctl := x }, mv := s.mv && decide (a = .ok), result := resultOf a, phase := .idle
        env := t.env }

/-- R188, clock start only: with the clock halted and the settings equal, START_SQW is the clock start. -/
def Obligations.StartSqwOnlyStartsTheClockWhenSettingsMatch : Prop :=
  ∀ (r : BitVec 2) (s : State), s.prompt = true → s.mirror.sec.getLsbD 7 = true → s.mirror.ctl.getLsbD 4 = true →
    s.mirror.ctl.toNat % 4 = r.toNat →
    ∃ t, exec (.startSqw r) s = .next t ∧ (BlockReadFailed s t [] ∨ SecondsRewritten s t [] (· &&& 0x7F))

/-- R188, both: with the clock halted and the settings differing, START_SQW makes the control write first; if that
fails the clock start is skipped and the mirror keeps the new M[7], otherwise the clock start follows. -/
def Obligations.StartSqwWritesControlThenStartsTheClock : Prop :=
  ∀ (r : BitVec 2) (s : State), s.prompt = true → s.mirror.sec.getLsbD 7 = true →
    (s.mirror.ctl.getLsbD 4 = false ∨ s.mirror.ctl.toNat % 4 ≠ r.toNat) →
    ∃ t x, exec (.startSqw r) s = .next t ∧
      x.getLsbD 4 = true ∧ x.toNat % 4 = r.toNat ∧ (∀ j, 2 ≤ j → j ≠ 4 → sameBit x s.mirror.ctl j) ∧
      let s₁ := { s with mirror := { s.mirror with ctl := x } }
      ((∃ c, t.env.trace = s.env.trace ++ [writeEvent [x] 0x07 (.err c)] ∧
          t = { s₁ with mv := false, result := .busFail c, phase := .idle, env := t.env }) ∨
       BlockReadFailed s₁ t [writeEvent [x] 0x07 .ok] ∨
       SecondsRewritten s₁ t [writeEvent [x] 0x07 .ok] (· &&& 0x7F))

/-- R190, item 1 (what the spec derives from R188): once START_SQW has succeeded with the clock running, a second START_SQW of the same rate makes no
transport call and changes nothing. -/
def Obligations.SecondStartSqwWritesNothing : Prop :=
  ∀ (r : BitVec 2) (s t : State), s.prompt = true → s.mirror.sec.getLsbD 7 = false →
    exec (.startSqw r) s = .next t → t.result = .success → exec (.startSqw r) t = .next t

/-- R190, item 2 (what the spec derives from R180, R186, R188; "register write" as D35 reads it): START_SQW on a halted chip with the square wave disabled makes exactly two register writes, control
then seconds, and leaves RUN_O = 1; RATE_O is the rate if the chip returns the control byte just written. -/
def Obligations.StartSqwOnHaltedChipMakesTwoRegisterWrites : Prop :=
  ∀ (r : BitVec 2) (s : State) (b : Block) (later : List (Option CallResult)) (blocks : List Block),
    s.mirror.sec.getLsbD 7 = true → s.mirror.ctl.getLsbD 4 = false →
    s.env.replies = some .ok :: some .ok :: some .ok :: some .ok :: later → s.env.blocks = b :: blocks →
    ∃ t new x y, exec (.startSqw r) s = .next t ∧ t.result = .success ∧ t.env.trace = s.env.trace ++ new ∧
      registerWrites new = [([x], [0x07]), ([y], [0x00])] ∧ t.runO = true ∧
      (b[7] = x → t.rateO = r ∧ t.sqweO = true)

/-- R70, R180, R186, vector T11: the environment's answers are used in the order it has them, one for each call, and
those of later calls are left. -/
def Obligations.StartClockUsesAnswersInOrder : Prop :=
  ∀ (s : State) (f : Bool) (b : Block) (r : CallResult) (later : List (Option CallResult)) (flags : List Bool)
    (blocks : List Block),
    s.env.replies = some .ok :: some .ok :: some r :: later → s.env.stopFlags = f :: flags →
    s.env.blocks = b :: blocks →
    exec .startClock s = .next { s with
      mirror := { Mirror.ofBlock b with sec := b[0] &&& 0x7F }, mv := decide (r = .ok), savedStop := f
      result := resultOf r, phase := .idle
      env := { s.env with
        replies := later, stopFlags := flags, blocks := blocks
        trace := s.env.trace ++ readEvents f b ++ [writeEvent [b[0] &&& 0x7F] 0x00 r] } }

/-- R254: a change made only to the mirror is lost by a block read. After a READ_ALL, READ_DT, START_CLOCK or STOP_CLOCK
that succeeds, the state is the one it reaches without the change. -/
def Obligations.RefillOverwritesLocalMirrorChanges : Prop :=
  ∀ (i j : Instr) (s u t t' : State), changesOnlyMirror i = true →
    j = .readAll ∨ j = .readDt ∨ j = .startClock ∨ j = .stopClock →
    exec i s = .next u → exec j s = .next t → exec j u = .next t' → t.phase = .idle → t.result = .success → t' = t

/-! ## Invariants of every step -/

/-- R21, R33 (the waiting points are those of log 6): from a state whose phase is IDLE or a waiting point of its command, a step never stops and leaves such a
state again. -/
def Obligations.StepKeepsPhaseLegalAndNeverStops : Prop :=
  ∀ s : State, s.phaseInv → ∃ t, step s = .next t ∧ t.phaseInv

/-- R25, R189, R226: while RESULT reports a failure and the core is idle, MV is 0, and every step keeps that. -/
def Obligations.StepKeepsFailureUntrusted : Prop :=
  ∀ s t : State, s.trustInv → step s = .next t → t.trustInv

/-- R58, R60, R62 to R68: every step makes only the calls, and with the arguments, that the rules list: the block read,
the block write, the seconds write, the control write, and INIT's two calls. -/
def Obligations.StepMakesOnlyTheListedTransfers : Prop :=
  ∀ s t : State, s.transferInv → step s = .next t → t.transferInv

/-- R59, R73, R258: no step separates a block read's receive from its pointer send under the repeated start. -/
def Obligations.StepNeverSplitsABlockRead : Prop :=
  ∀ s t : State, s.unsplitInv → step s = .next t → t.unsplitInv

/-- R250: the state after reset meets every invariant, whatever the mirror and SAVED_STOP hold. -/
def Obligations.ResetMeetsTheInvariants : Prop :=
  ∀ (m : Mirror) (b : Bool), let s := State.resetWith m b
    s.phaseInv ∧ s.trustInv ∧ s.transferInv ∧ s.unsplitInv
end

