-- ==== Sys2Proof/Laws/State.lean ====
section
/-! SUPPORT. One lemma per field of State per update, each true by rfl, so that no later proof unfolds an update. -/

namespace Sys2Proof.Machine

/-! ## finish -/

@[simp] theorem finish_mirror (r : Result) (s : State) : (finish r s).mirror = s.mirror := rfl
@[simp] theorem finish_mv (r : Result) (s : State) : (finish r s).mv = s.mv := rfl
@[simp] theorem finish_result (r : Result) (s : State) : (finish r s).result = r := rfl
@[simp] theorem finish_codecOut (r : Result) (s : State) : (finish r s).codecOut = s.codecOut := rfl
@[simp] theorem finish_dataOut (r : Result) (s : State) : (finish r s).dataOut = s.dataOut := rfl
@[simp] theorem finish_dtOut (r : Result) (s : State) : (finish r s).dtOut = s.dtOut := rfl
@[simp] theorem finish_savedStop (r : Result) (s : State) : (finish r s).savedStop = s.savedStop := rfl
@[simp] theorem finish_phase (r : Result) (s : State) : (finish r s).phase = .idle := rfl
@[simp] theorem finish_dtIn (r : Result) (s : State) : (finish r s).dtIn = s.dtIn := rfl
@[simp] theorem finish_pending (r : Result) (s : State) : (finish r s).pending = s.pending := rfl
@[simp] theorem finish_env (r : Result) (s : State) : (finish r s).env = s.env := rfl

/-! ## busFail -/

@[simp] theorem busFail_mirror (c : TransportCode) (s : State) : (busFail c s).mirror = s.mirror := rfl
@[simp] theorem busFail_mv (c : TransportCode) (s : State) : (busFail c s).mv = false := rfl
@[simp] theorem busFail_result (c : TransportCode) (s : State) : (busFail c s).result = .busFail c := rfl
@[simp] theorem busFail_codecOut (c : TransportCode) (s : State) : (busFail c s).codecOut = s.codecOut := rfl
@[simp] theorem busFail_dataOut (c : TransportCode) (s : State) : (busFail c s).dataOut = s.dataOut := rfl
@[simp] theorem busFail_dtOut (c : TransportCode) (s : State) : (busFail c s).dtOut = s.dtOut := rfl
@[simp] theorem busFail_savedStop (c : TransportCode) (s : State) : (busFail c s).savedStop = s.savedStop := rfl
@[simp] theorem busFail_phase (c : TransportCode) (s : State) : (busFail c s).phase = .idle := rfl
@[simp] theorem busFail_dtIn (c : TransportCode) (s : State) : (busFail c s).dtIn = s.dtIn := rfl
@[simp] theorem busFail_pending (c : TransportCode) (s : State) : (busFail c s).pending = s.pending := rfl
@[simp] theorem busFail_env (c : TransportCode) (s : State) : (busFail c s).env = s.env := rfl

/-! ## takeIllegal -/

@[simp] theorem takeIllegal_mirror (s : State) : (takeIllegal s).mirror = s.mirror := rfl
@[simp] theorem takeIllegal_mv (s : State) : (takeIllegal s).mv = s.mv := rfl
@[simp] theorem takeIllegal_result (s : State) : (takeIllegal s).result = .illegal := rfl
@[simp] theorem takeIllegal_codecOut (s : State) : (takeIllegal s).codecOut = s.codecOut := rfl
@[simp] theorem takeIllegal_dataOut (s : State) : (takeIllegal s).dataOut = s.dataOut := rfl
@[simp] theorem takeIllegal_dtOut (s : State) : (takeIllegal s).dtOut = s.dtOut := rfl
@[simp] theorem takeIllegal_savedStop (s : State) : (takeIllegal s).savedStop = s.savedStop := rfl
@[simp] theorem takeIllegal_phase (s : State) : (takeIllegal s).phase = .idle := rfl
@[simp] theorem takeIllegal_dtIn (s : State) : (takeIllegal s).dtIn = s.dtIn := rfl
@[simp] theorem takeIllegal_pending (s : State) : (takeIllegal s).pending = s.pending := rfl
@[simp] theorem takeIllegal_env (s : State) : (takeIllegal s).env = s.env := rfl

/-! ## accept -/

@[simp] theorem State.accept_mirror (c : Command) (rest : List Command) (s : State) : (s.accept c rest).mirror = s.mirror := rfl
@[simp] theorem State.accept_mv (c : Command) (rest : List Command) (s : State) : (s.accept c rest).mv = s.mv := rfl
@[simp] theorem State.accept_result (c : Command) (rest : List Command) (s : State) : (s.accept c rest).result = s.result := rfl
@[simp] theorem State.accept_codecOut (c : Command) (rest : List Command) (s : State) : (s.accept c rest).codecOut = s.codecOut := rfl
@[simp] theorem State.accept_dataOut (c : Command) (rest : List Command) (s : State) : (s.accept c rest).dataOut = s.dataOut := rfl
@[simp] theorem State.accept_dtOut (c : Command) (rest : List Command) (s : State) : (s.accept c rest).dtOut = s.dtOut := rfl
@[simp] theorem State.accept_savedStop (c : Command) (rest : List Command) (s : State) : (s.accept c rest).savedStop = s.savedStop := rfl
@[simp] theorem State.accept_phase (c : Command) (rest : List Command) (s : State) : (s.accept c rest).phase = s.phase := rfl
@[simp] theorem State.accept_dtIn (c : Command) (rest : List Command) (s : State) : (s.accept c rest).dtIn = c.dtIn := rfl
@[simp] theorem State.accept_pending (c : Command) (rest : List Command) (s : State) : (s.accept c rest).pending = rest := rfl
@[simp] theorem State.accept_env (c : Command) (rest : List Command) (s : State) : (s.accept c rest).env = s.env := rfl

/-! ## discardWord -/

@[simp] theorem State.discardWord_mirror (rest : List Command) (s : State) : (s.discardWord rest).mirror = s.mirror := rfl
@[simp] theorem State.discardWord_mv (rest : List Command) (s : State) : (s.discardWord rest).mv = s.mv := rfl
@[simp] theorem State.discardWord_result (rest : List Command) (s : State) : (s.discardWord rest).result = s.result := rfl
@[simp] theorem State.discardWord_codecOut (rest : List Command) (s : State) : (s.discardWord rest).codecOut = s.codecOut := rfl
@[simp] theorem State.discardWord_dataOut (rest : List Command) (s : State) : (s.discardWord rest).dataOut = s.dataOut := rfl
@[simp] theorem State.discardWord_dtOut (rest : List Command) (s : State) : (s.discardWord rest).dtOut = s.dtOut := rfl
@[simp] theorem State.discardWord_savedStop (rest : List Command) (s : State) : (s.discardWord rest).savedStop = s.savedStop := rfl
@[simp] theorem State.discardWord_phase (rest : List Command) (s : State) : (s.discardWord rest).phase = s.phase := rfl
@[simp] theorem State.discardWord_dtIn (rest : List Command) (s : State) : (s.discardWord rest).dtIn = s.dtIn := rfl
@[simp] theorem State.discardWord_pending (rest : List Command) (s : State) : (s.discardWord rest).pending = rest := rfl
@[simp] theorem State.discardWord_env (rest : List Command) (s : State) : (s.discardWord rest).env = s.env := rfl

/-! ## present -/

@[simp] theorem State.present_mirror (c : Command) (s : State) : (s.present c).mirror = s.mirror := rfl
@[simp] theorem State.present_mv (c : Command) (s : State) : (s.present c).mv = s.mv := rfl
@[simp] theorem State.present_result (c : Command) (s : State) : (s.present c).result = s.result := rfl
@[simp] theorem State.present_codecOut (c : Command) (s : State) : (s.present c).codecOut = s.codecOut := rfl
@[simp] theorem State.present_dataOut (c : Command) (s : State) : (s.present c).dataOut = s.dataOut := rfl
@[simp] theorem State.present_dtOut (c : Command) (s : State) : (s.present c).dtOut = s.dtOut := rfl
@[simp] theorem State.present_savedStop (c : Command) (s : State) : (s.present c).savedStop = s.savedStop := rfl
@[simp] theorem State.present_phase (c : Command) (s : State) : (s.present c).phase = s.phase := rfl
@[simp] theorem State.present_dtIn (c : Command) (s : State) : (s.present c).dtIn = s.dtIn := rfl
@[simp] theorem State.present_pending (c : Command) (s : State) : (s.present c).pending = s.pending ++ [c] := rfl
@[simp] theorem State.present_env (c : Command) (s : State) : (s.present c).env = s.env := rfl

/-! ## waitAt -/

@[simp] theorem State.waitAt_mirror (cmd : Instr) (k : Nat) (s : State) : (s.waitAt cmd k).mirror = s.mirror := rfl
@[simp] theorem State.waitAt_mv (cmd : Instr) (k : Nat) (s : State) : (s.waitAt cmd k).mv = s.mv := rfl
@[simp] theorem State.waitAt_result (cmd : Instr) (k : Nat) (s : State) : (s.waitAt cmd k).result = s.result := rfl
@[simp] theorem State.waitAt_codecOut (cmd : Instr) (k : Nat) (s : State) : (s.waitAt cmd k).codecOut = s.codecOut := rfl
@[simp] theorem State.waitAt_dataOut (cmd : Instr) (k : Nat) (s : State) : (s.waitAt cmd k).dataOut = s.dataOut := rfl
@[simp] theorem State.waitAt_dtOut (cmd : Instr) (k : Nat) (s : State) : (s.waitAt cmd k).dtOut = s.dtOut := rfl
@[simp] theorem State.waitAt_savedStop (cmd : Instr) (k : Nat) (s : State) : (s.waitAt cmd k).savedStop = s.savedStop := rfl
@[simp] theorem State.waitAt_phase (cmd : Instr) (k : Nat) (s : State) : (s.waitAt cmd k).phase = .busy cmd k := rfl
@[simp] theorem State.waitAt_dtIn (cmd : Instr) (k : Nat) (s : State) : (s.waitAt cmd k).dtIn = s.dtIn := rfl
@[simp] theorem State.waitAt_pending (cmd : Instr) (k : Nat) (s : State) : (s.waitAt cmd k).pending = s.pending := rfl
@[simp] theorem State.waitAt_env (cmd : Instr) (k : Nat) (s : State) : (s.waitAt cmd k).env = s.env := rfl

/-! ## emit, restoreStop and the failed receive -/

@[simp] theorem State.emit_mirror (c : Call) (a : Answer) (s : State) : (s.emit c a).mirror = s.mirror := rfl
@[simp] theorem State.emit_mv (c : Call) (a : Answer) (s : State) : (s.emit c a).mv = s.mv := rfl
@[simp] theorem State.emit_result (c : Call) (a : Answer) (s : State) : (s.emit c a).result = s.result := rfl
@[simp] theorem State.emit_codecOut (c : Call) (a : Answer) (s : State) : (s.emit c a).codecOut = s.codecOut := rfl
@[simp] theorem State.emit_dataOut (c : Call) (a : Answer) (s : State) : (s.emit c a).dataOut = s.dataOut := rfl
@[simp] theorem State.emit_dtOut (c : Call) (a : Answer) (s : State) : (s.emit c a).dtOut = s.dtOut := rfl
@[simp] theorem State.emit_savedStop (c : Call) (a : Answer) (s : State) : (s.emit c a).savedStop = s.savedStop := rfl
@[simp] theorem State.emit_phase (c : Call) (a : Answer) (s : State) : (s.emit c a).phase = s.phase := rfl
@[simp] theorem State.emit_dtIn (c : Call) (a : Answer) (s : State) : (s.emit c a).dtIn = s.dtIn := rfl
@[simp] theorem State.emit_pending (c : Call) (a : Answer) (s : State) : (s.emit c a).pending = s.pending := rfl
@[simp] theorem State.emit_env_replies (c : Call) (a : Answer) (s : State) : (s.emit c a).env.replies = s.env.replies := rfl
@[simp] theorem State.emit_env_stopFlags (c : Call) (a : Answer) (s : State) : (s.emit c a).env.stopFlags = s.env.stopFlags := rfl
@[simp] theorem State.emit_env_blocks (c : Call) (a : Answer) (s : State) : (s.emit c a).env.blocks = s.env.blocks := rfl
@[simp] theorem State.emit_env_draws (c : Call) (a : Answer) (s : State) : (s.emit c a).env.draws = s.env.draws := rfl
@[simp] theorem State.emit_env_trace (c : Call) (a : Answer) (s : State) :
    (s.emit c a).env.trace = s.env.trace ++ [⟨c, a⟩] := rfl
@[simp] theorem restoreStop_mirror (s : State) : (restoreStop s).mirror = s.mirror := rfl
@[simp] theorem restoreStop_mv (s : State) : (restoreStop s).mv = s.mv := rfl
@[simp] theorem restoreStop_result (s : State) : (restoreStop s).result = s.result := rfl
@[simp] theorem restoreStop_codecOut (s : State) : (restoreStop s).codecOut = s.codecOut := rfl
@[simp] theorem restoreStop_dataOut (s : State) : (restoreStop s).dataOut = s.dataOut := rfl
@[simp] theorem restoreStop_dtOut (s : State) : (restoreStop s).dtOut = s.dtOut := rfl
@[simp] theorem restoreStop_savedStop (s : State) : (restoreStop s).savedStop = s.savedStop := rfl
@[simp] theorem restoreStop_phase (s : State) : (restoreStop s).phase = s.phase := rfl
@[simp] theorem restoreStop_dtIn (s : State) : (restoreStop s).dtIn = s.dtIn := rfl
@[simp] theorem restoreStop_pending (s : State) : (restoreStop s).pending = s.pending := rfl
@[simp] theorem restoreStop_env_trace (s : State) :
    (restoreStop s).env.trace = s.env.trace ++ [⟨.setStop s.savedStop, .none⟩] := rfl
@[simp] theorem State.scrambleMirror_mv (s : State) : s.scrambleMirror.mv = s.mv := rfl
@[simp] theorem State.scrambleMirror_result (s : State) : s.scrambleMirror.result = s.result := rfl
@[simp] theorem State.scrambleMirror_codecOut (s : State) : s.scrambleMirror.codecOut = s.codecOut := rfl
@[simp] theorem State.scrambleMirror_dataOut (s : State) : s.scrambleMirror.dataOut = s.dataOut := rfl
@[simp] theorem State.scrambleMirror_dtOut (s : State) : s.scrambleMirror.dtOut = s.dtOut := rfl
@[simp] theorem State.scrambleMirror_savedStop (s : State) : s.scrambleMirror.savedStop = s.savedStop := rfl
@[simp] theorem State.scrambleMirror_phase (s : State) : s.scrambleMirror.phase = s.phase := rfl
@[simp] theorem State.scrambleMirror_dtIn (s : State) : s.scrambleMirror.dtIn = s.dtIn := rfl
@[simp] theorem State.scrambleMirror_pending (s : State) : s.scrambleMirror.pending = s.pending := rfl
@[simp] theorem State.scrambleMirror_env_trace (s : State) : s.scrambleMirror.env.trace = s.env.trace := rfl
@[simp] theorem State.scrambleMirror_env_replies (s : State) : s.scrambleMirror.env.replies = s.env.replies := rfl

end Sys2Proof.Machine
end

