-- ==== Sys2Proof/Laws/Ops.lean ====
section
/-! SUPPORT. What each shared operation can do, said once: proofs cite these lemmas and do not unfold the operations.
Also the laws of the mirror by index, and of the BCD codec as arithmetic. -/

namespace Sys2Proof.Machine

/-! ## The mirror by index -/

@[simp] theorem Mirror.get_set_same (m : Mirror) (a : BitVec 3) (v : Byte) : (m.set a v).get a = v := by
  revert a; simp only [Mirror.get, Mirror.set]; intro a
  rcases a with ⟨⟨n, hn⟩⟩
  have : n = 0 ∨ n = 1 ∨ n = 2 ∨ n = 3 ∨ n = 4 ∨ n = 5 ∨ n = 6 ∨ n = 7 := by omega
  rcases this with rfl | rfl | rfl | rfl | rfl | rfl | rfl | rfl <;> rfl

theorem Mirror.get_set_other (m : Mirror) (a b : BitVec 3) (v : Byte) (h : b ≠ a) : (m.set a v).get b = m.get b := by
  rcases b with ⟨⟨n, hn⟩⟩
  have : n = 0 ∨ n = 1 ∨ n = 2 ∨ n = 3 ∨ n = 4 ∨ n = 5 ∨ n = 6 ∨ n = 7 := by omega
  rcases this with rfl | rfl | rfl | rfl | rfl | rfl | rfl | rfl <;>
    exact if_neg fun e => h e.symm

/-- Byte `i` of a block fills M[i] (R54, R180). -/
theorem Mirror.toList_ofBlock (b : Block) : (Mirror.ofBlock b).toList = b.toList := by
  rcases b with ⟨⟨l⟩, h⟩
  rcases l with _ | ⟨b0, _ | ⟨b1, _ | ⟨b2, _ | ⟨b3, _ | ⟨b4, _ | ⟨b5, _ | ⟨b6, _ | ⟨b7, _ | ⟨b8, l⟩⟩⟩⟩⟩⟩⟩⟩⟩ <;>
    first | rfl | simp at h

/-- M[a] is filled with the byte of the chip address whose image it is (R22, R52, R54). -/
theorem Mirror.get_ofBlock (b : Block) (a : BitVec 3) :
    b.toList[(chipAddress a).toNat]? = some ((Mirror.ofBlock b).get a) := by
  have h : (chipAddress a).toNat = a.toNat := by simp [chipAddress]; omega
  rw [h, ← Mirror.toList_ofBlock]
  rcases a with ⟨⟨n, hn⟩⟩
  have : n = 0 ∨ n = 1 ∨ n = 2 ∨ n = 3 ∨ n = 4 ∨ n = 5 ∨ n = 6 ∨ n = 7 := by omega
  rcases this with rfl | rfl | rfl | rfl | rfl | rfl | rfl | rfl <;> rfl

/-- `M[a]` is entry `a` of the list in transfer order (R22, R54). -/
theorem Mirror.toList_get (m : Mirror) (a : BitVec 3) : m.toList[a.toNat]? = some (m.get a) := by
  rcases a with ⟨⟨n, hn⟩⟩
  have : n = 0 ∨ n = 1 ∨ n = 2 ∨ n = 3 ∨ n = 4 ∨ n = 5 ∨ n = 6 ∨ n = 7 := by omega
  rcases this with rfl | rfl | rfl | rfl | rfl | rfl | rfl | rfl <;> rfl

/-! ## The codec as arithmetic -/

/-- R110 as its equivalent form. -/
theorem decodeBcd_toNat (b : Byte) : (decodeBcd b).toNat = 10 * bcdTens b + bcdUnits b := by revert b; decide

theorem decodeBcd_le (b : Byte) : (decodeBcd b).toNat ≤ 165 := by revert b; decide

/-- R112 on 0 to 99. -/
theorem encodeBcd_packs (n : Nat) (h : n ≤ 99) : packs (encodeBcd (BitVec.ofNat 8 n)) n := by
  have all : ∀ v : Byte, v.toNat ≤ 99 →
      bcdTens (encodeBcd v) = v.toNat / 10 ∧ bcdUnits (encodeBcd v) = v.toNat % 10 := by decide
  have e : (BitVec.ofNat 8 n).toNat = n := by simp; omega
  have := all (BitVec.ofNat 8 n)
  rw [e] at this
  exact this h

theorem clamp_le (x lo hi : Nat) : clamp x lo hi ≤ hi := Nat.min_le_right _ _

theorem le_clamp (x lo hi : Nat) (h : lo ≤ hi) : lo ≤ clamp x lo hi := by unfold clamp; omega

/-! ## The environment's answers -/

/-- `t` is `s` but for the answers the environment still has: no register and no event differs. -/
def SameButAnswers (s t : State) : Prop := t = { s with env := t.env } ∧ t.env.trace = s.env.trace

theorem State.nextReply_same (s : State) : SameButAnswers s s.nextReply.2 := by
  unfold State.nextReply; split <;> exact ⟨rfl, rfl⟩

theorem State.nextStopFlag_same (s : State) : SameButAnswers s s.nextStopFlag.2 := by
  unfold State.nextStopFlag; split <;> exact ⟨rfl, rfl⟩

theorem State.nextBlock_same (s : State) : SameButAnswers s s.nextBlock.2 := by
  unfold State.nextBlock; split <;> exact ⟨rfl, rfl⟩

/-- A prompt environment answers the next result-returning call, and stays prompt. -/
theorem State.nextReply_prompt (s : State) (h : s.prompt = true) :
    ∃ r, s.nextReply.1 = some r ∧ s.nextReply.2.prompt = true := by
  unfold State.nextReply
  unfold State.prompt at h
  split
  · next r rest e =>
    rw [e] at h
    simp only [List.all_cons, Bool.and_eq_true, Option.isSome_iff_exists] at h
    obtain ⟨⟨a, rfl⟩, hr⟩ := h
    exact ⟨a, rfl, hr⟩
  · next e => exact ⟨_, rfl, by simp [State.prompt, e]⟩

theorem State.nextStopFlag_replies (s : State) : s.nextStopFlag.2.env.replies = s.env.replies := by
  unfold State.nextStopFlag; split <;> rfl

theorem State.nextBlock_replies (s : State) : s.nextBlock.2.env.replies = s.env.replies := by
  unfold State.nextBlock; split <;> rfl

/-! ## Transport calls -/

/-- Everything a result-returning call can do: wait, go on after OK, or go on after ERR. -/
theorem resultCall_cases (cmd : Instr) (k : Nat) (c : Call) (onErr : TransportCode → State → State)
    (onOk : State → State) (s : State) :
    ∃ s₁, SameButAnswers s s₁ ∧
      ((s.prompt = false ∧ resultCall cmd k c onErr onOk s = s₁.waitAt cmd k) ∨
       ((s.prompt = true → s₁.prompt = true) ∧
         (resultCall cmd k c onErr onOk s = onOk (s₁.emit c (.result .ok)) ∨
          ∃ e, resultCall cmd k c onErr onOk s = onErr e (s₁.emit c (.result (.err e)))))) := by
  have same := s.nextReply_same
  have hp := s.nextReply_prompt
  rcases h : s.nextReply with ⟨r, s₁⟩
  simp only [h] at same hp
  refine ⟨s₁, same, ?_⟩
  simp only [resultCall, h]
  rcases r with _ | _ | e
  · exact .inl ⟨by_contra fun hs => by simpa using hp (by simpa using hs), rfl⟩
  · exact .inr ⟨fun hs => (hp hs).elim fun _ x => x.2, .inl rfl⟩
  · exact .inr ⟨fun hs => (hp hs).elim fun _ x => x.2, .inr ⟨e, rfl⟩⟩

/-- A command's last call in a prompt environment: RESULT says its answer, MV is kept on OK and cleared on ERR. -/
theorem lastCall_prompt (cmd : Instr) (k : Nat) (c : Call) (s : State) (hs : s.prompt = true) :
    ∃ r t, resultCall cmd k c busFail (finish .success) s = t ∧
      t.env.trace = s.env.trace ++ [⟨c, .result r⟩] ∧
      t = { s with mv := s.mv && decide (r = .ok), result := resultOf r, phase := .idle, env := t.env } := by
  obtain ⟨s₁, ⟨e, tr⟩, ⟨bad, -⟩ | ⟨-, ok | ⟨c', bad⟩⟩⟩ := resultCall_cases cmd k c busFail (finish .success) s
  · simp [hs] at bad
  · exact ⟨.ok, _, ok, by simp [tr], by rw [e]; simp [resultOf, finish, State.emit]⟩
  · exact ⟨.err c', _, bad, by simp [tr], by rw [e]; simp [resultOf, busFail, finish, State.emit]⟩

/-- Everything the receive of a block read can do: wait, fill the mirror and go on, or fail. -/
theorem receiveStage_cases (cmd : Instr) (k : Nat) (after : State → State) (s : State) :
    ∃ s₁, SameButAnswers s s₁ ∧
      ((s.prompt = false ∧ receiveStage cmd k after s = s₁.waitAt cmd k) ∨
       ((s.prompt = true → s₁.prompt = true) ∧
         ((∃ b, receiveStage cmd k after s =
            after { restoreStop (s₁.emit (.receive 8) (.received b)) with mirror := .ofBlock b, mv := true }) ∨
          ∃ c, receiveStage cmd k after s =
            busFail c (restoreStop (s₁.emit (.receive 8) (.result (.err c)))).scrambleMirror))) := by
  have same := s.nextReply_same
  have hp := s.nextReply_prompt
  rcases h : s.nextReply with ⟨r, s₁⟩
  simp only [h] at same hp
  simp only [receiveStage, h]
  rcases r with _ | _ | e
  · exact ⟨s₁, same, .inl ⟨by_contra fun hs => by simpa using hp (by simpa using hs), rfl⟩⟩
  · have same₂ := s₁.nextBlock_same
    have reps := s₁.nextBlock_replies
    rcases h₂ : s₁.nextBlock with ⟨b, s₂⟩
    simp only [h₂] at same₂ reps
    refine ⟨s₂, ⟨?_, same₂.2.trans same.2⟩, .inr ⟨fun hs => ?_, .inl ⟨b, by simp only [h₂]⟩⟩⟩
    · rw [same₂.1, same.1]
    · obtain ⟨_, _, h₁⟩ := hp hs
      simpa [State.prompt, reps] using h₁
  · exact ⟨s₁, same, .inr ⟨fun hs => (hp hs).elim fun _ x => x.2, .inr ⟨e, rfl⟩⟩⟩

/-- A block read in a prompt environment: it fails and ends the command, or goes on with the mirror filled. -/
theorem blockRead_prompt (cmd : Instr) (k : Nat) (after : State → State) (s : State) (hs : s.prompt = true) :
    BlockReadFailed s (blockRead cmd k after s) [] ∨
    ∃ f b s₁, blockRead cmd k after s = after s₁ ∧ s₁.prompt = true ∧
      s₁.env.trace = s.env.trace ++ readEvents f b ∧
      s₁ = { s with mirror := .ofBlock b, mv := true, savedStop := f, env := s₁.env } := by
  have same := s.nextStopFlag_same
  have reps := s.nextStopFlag_replies
  rcases h : s.nextStopFlag with ⟨f, s₁⟩
  simp only [h] at same reps
  obtain ⟨e₁, tr₁⟩ := same
  simp only [blockRead, h, sendPointerStage]
  set s₂ := ({ s₁ with savedStop := f }.emit .getStop (.flag f)).emit .setRepeatedStart .none with hs₂
  have p₂ : s₂.prompt = true := by simpa [hs₂, State.prompt, reps] using hs
  have tr₂ : s₂.env.trace = s.env.trace ++ openReadEvents f := by simp [hs₂, tr₁, openReadEvents]
  have e₂ : s₂ = { s with savedStop := f, env := s₂.env } := by rw [hs₂, e₁]; rfl
  obtain ⟨s₃, ⟨e₃, tr₃⟩, ⟨bad, -⟩ | ⟨hp, ok | ⟨c, bad⟩⟩⟩ := resultCall_cases cmd (k + 2) (.send [secondsAddress])
    (fun c s₁ => busFail c (restoreStop s₁)) (receiveStage cmd (k + 2 + 1) after) s₂
  · simp [p₂] at bad
  · rw [ok]
    set s₄ := s₃.emit (.send [secondsAddress]) (.result .ok) with hs₄
    have p₄ : s₄.prompt = true := hp p₂
    have e₄ : s₄ = { s with savedStop := f, env := s₄.env } := by rw [hs₄, e₃, e₂]; rfl
    obtain ⟨s₅, ⟨e₅, tr₅⟩, ⟨bad, -⟩ | ⟨hp₅, ⟨b, ok⟩ | ⟨c, bad⟩⟩⟩ := receiveStage_cases cmd (k + 2 + 1) after s₄
    · simp [p₄] at bad
    · refine .inr ⟨f, b, _, ok, ?_, ?_, ?_⟩
      · exact hp₅ p₄
      · have : s₅.savedStop = f := by rw [e₅, e₄]
        simp [tr₅, hs₄, tr₃, tr₂, readEvents, this, secondsAddress]
      · rw [e₅, e₄]; rfl
    · refine .inl ⟨f, c, .inr ⟨?_, ?_⟩⟩
      · have : s₅.savedStop = f := by rw [e₅, e₄]
        rw [bad]; simp [tr₅, hs₄, tr₃, tr₂, receiveFailedEvents, this, secondsAddress]
      · rw [bad, e₅, e₄]; rfl
  · refine .inl ⟨f, c, .inl ⟨?_, ?_⟩⟩
    · have : s₃.savedStop = f := by rw [e₃, e₂]
      rw [bad]; simp [tr₃, tr₂, sendFailedEvents, this, secondsAddress]
    · rw [bad, e₃, e₂]; rfl

/-- The clock start in a prompt environment, from a state `s` that the command reached from `s₀` by the events `pre`. -/
theorem clockStart_prompt (cmd : Instr) (k : Nat) (s₀ s : State) (pre : List Event) (hs : s.prompt = true)
    (h₀ : s = { s₀ with env := s.env }) (tr₀ : s.env.trace = s₀.env.trace ++ pre) :
    BlockReadFailed s₀ (clockStart cmd k s) pre ∨ SecondsRewritten s₀ (clockStart cmd k s) pre (· &&& 0x7F) := by
  rcases blockRead_prompt cmd k (clockStartWrite cmd (k + 5)) s hs with h | ⟨f, b, s₁, e, p, tr, e₁⟩
  · left
    obtain ⟨f, c, ⟨h₁, h₂⟩ | ⟨h₁, h₂⟩⟩ := h
    · exact ⟨f, c, .inl ⟨by rw [clockStart, h₁, tr₀]; simp, by rw [clockStart, h₂, h₀]⟩⟩
    · exact ⟨f, c, .inr ⟨by rw [clockStart, h₁, tr₀]; simp, by rw [clockStart, h₂, h₀]⟩⟩
  · right
    obtain ⟨r, t, h₁, h₂, h₃⟩ := lastCall_prompt cmd (k + 5)
      (.sendPrefixed [s₁.mirror.clearCh.sec] [secondsAddress] true) { s₁ with mirror := s₁.mirror.clearCh } p
    have ht : clockStart cmd k s = t := by rw [clockStart, e]; exact h₁
    refine ⟨f, b, r, ?_, ?_⟩
    · rw [ht, h₂, tr, tr₀, e₁]; simp [Mirror.clearCh, Mirror.ofBlock, writeEvent, secondsAddress]
    · rw [ht, h₃, e₁, h₀]; simp [Mirror.clearCh, Mirror.ofBlock]

end Sys2Proof.Machine
end

