-- ==== Sys2Proof/Laws/PerInstr.lean ====
section
/-! SUPPORT. One lemma per command: the fields of its encoding are well-formed (30_encoding.md R93, R94). -/

namespace Sys2Proof.Laws.FieldsWellFormed

/-- The fields that encode the command have an assigned op and 0 in every bit that must be 0. -/
def Statement (i : Instr) : Prop := i.toFields.wellFormed = true

theorem bcdDec (imm : Byte) : Statement (.bcdDec imm) := by revert imm; unfold Statement; decide
theorem bcdEnc (imm : Byte) : Statement (.bcdEnc imm) := by revert imm; unfold Statement; decide
theorem mirRd (a : BitVec 3) : Statement (.mirRd a) := by revert a; unfold Statement; decide
theorem mirWr (a : BitVec 3) (imm : Byte) : Statement (.mirWr a imm) := by
  have h : imm &&& ~~~(0xFF : BitVec 8) == 0 := by revert imm; decide
  exact h
theorem dtDecode : Statement .dtDecode := rfl
theorem dtEncode : Statement .dtEncode := rfl
theorem clkEnable : Statement .clkEnable := rfl
theorem clkDisable : Statement .clkDisable := rfl
theorem sqwRateSet (rate : BitVec 2) : Statement (.sqwRateSet rate) := by revert rate; unfold Statement; decide
theorem sqwEnSet (enable : Bool) : Statement (.sqwEnSet enable) := by cases enable <;> rfl
theorem outSet (level : Bool) : Statement (.outSet level) := by cases level <;> rfl
theorem init : Statement .init := rfl
theorem readAll : Statement .readAll := rfl
theorem readDt : Statement .readDt := rfl
theorem writeDt : Statement .writeDt := rfl
theorem startClockDt : Statement .startClockDt := rfl
theorem startClock : Statement .startClock := rfl
theorem stopClock : Statement .stopClock := rfl
theorem startSqw (rate : BitVec 2) : Statement (.startSqw rate) := by revert rate; unfold Statement; decide

end Sys2Proof.Laws.FieldsWellFormed
end

