-- ==== Sys2Proof/Machine/Assembler.lean ====
section
/-! DEFINITION. The host's side of the command port: assembler text (30_encoding.md R96) and the pseudo-instructions,
which are host-side sequences and not commands of the core (R97, log 18). No meaning uses this file. -/

namespace Sys2Proof.Machine

/-- A boolean in assembler text: 0 or 1 (R96). -/
def bitText (b : Bool) : String := if b then "1" else "0"

/-- A command in assembler text: the mnemonic, then its operands in decimal, separated by commas (R96). -/
def assembly (i : Instr) : String :=
  match i with
  | .bcdDec imm | .bcdEnc imm => i.mnemonic ++ " " ++ toString imm.toNat
  | .mirRd a => i.mnemonic ++ " " ++ toString a.toNat
  | .mirWr a imm => i.mnemonic ++ " " ++ toString a.toNat ++ ", " ++ toString imm.toNat
  | .sqwRateSet r | .startSqw r => i.mnemonic ++ " " ++ toString r.toNat
  | .sqwEnSet b | .outSet b => i.mnemonic ++ " " ++ bitText b
  | .dtDecode | .dtEncode | .clkEnable | .clkDisable
  | .init | .readAll | .readDt | .writeDt | .startClockDt | .startClock | .stopClock => i.mnemonic

/-- The name of a rate in assembler text (R37, R96). -/
def rateText (rate : BitVec 2) : String := toString (rateHz rate) ++ "Hz"

/-- The DT_IN bundle in assembler text, in braces (R96). Braces are characters 123 and 125. -/
def bundleText (d : Datetime) : String :=
  String.singleton (Char.ofNat 123) ++ "year:" ++ toString d.year.toNat ++ ", month:" ++ toString d.month.toNat
    ++ ", day:" ++ toString d.day.toNat ++ ", hour:" ++ toString d.hour.toNat ++ ", minute:" ++ toString d.minute.toNat
    ++ ", second:" ++ toString d.second.toNat ++ ", weekday:" ++ toString d.weekday.toNat
    ++ ", mode12h:" ++ bitText d.mode12h ++ ", pm:" ++ bitText d.pm ++ String.singleton (Char.ofNat 125)

/-- A command that reads DT_IN (R31). -/
def readsBundle : Instr → Bool
  | .dtEncode | .writeDt | .startClockDt => true
  | .bcdDec _ | .bcdEnc _ | .mirRd _ | .mirWr _ _ | .dtDecode | .clkEnable | .clkDisable | .sqwRateSet _ | .sqwEnSet _
  | .outSet _ | .init | .readAll | .readDt | .startClock | .stopClock | .startSqw _ => false

/-- A command as the host writes it: the bundle follows where the command reads it (R96). -/
def assemblyWithBundle (i : Instr) (d : Datetime) : String :=
  if readsBundle i then assembly i ++ " " ++ bundleText d else assembly i

/-- START_CLOCK_TEXT (R97), from step 2 on: `parsed` is what the external parser gave for the date and time, `pm` is
the host's choice, and the command is START_CLOCK_DT. -/
def startClockText (parsed : Datetime) (weekday : Byte) (mode12h pm : Bool) : Command :=
  ⟨encode .startClockDt, { parsed with weekday := weekday, mode12h := mode12h, pm := pm }⟩

/-- READ_DATETIME (R97): the command to present. -/
def readDatetimeCommand (d : Datetime) : Command := ⟨encode .readDt, d⟩

/-- READ_DATETIME (R97): then DT_OUT is read, where the outputs can be sampled. -/
def readDatetimeResult (s : State) : Option Datetime := s.sample.map (·.dtOut)

end Sys2Proof.Machine
end

