-- ==== Sys2Proof/Machine/Wire.lean ====
section
/-! DEFINITION. The wire-level reading of the register transfers (20_memory.md R58, R69). It is informative only: no
rule and no meaning depends on it (PRESUMED, log 19). -/

namespace Sys2Proof.Machine

/-- What a two-wire bus carries (R69). -/
inductive WireSymbol where
  /-- S -/
  | start
  /-- Sr -/
  | repeatedStart
  /-- P -/
  | stop
  /-- The device address with the direction: read or write. -/
  | address (a : BitVec 7) (read : Bool)
  | data (b : Byte)
  deriving DecidableEq, Repr

/-- The block read: `S, 0x68+W, 0x00, Sr, 0x68+R, 8 data bytes, P` (R69). -/
def wireBlockRead (bytes : Block) : List WireSymbol :=
  [.start, .address Config.deviceAddress false, .data secondsAddress, .repeatedStart, .address Config.deviceAddress true]
    ++ bytes.toList.map .data ++ [.stop]

/-- A prefixed write: `S, 0x68+W`, the prefix, the payload, and `P` where it ends with a stop condition (R68, R69). -/
def wireWrite (payload pfx : List Byte) (stop : Bool) : List WireSymbol :=
  [.start, .address Config.deviceAddress false] ++ (pfx ++ payload).map .data ++ (if stop then [.stop] else [])

/-- The wire symbols of a sequence of fully answered events (R69): a block read is a send under a repeated start and
the receive after it; calls that configure the transport, and failed ones, give no symbols here. -/
def wireOf : List Event → List WireSymbol
  | [] => []
  | ⟨.sendPrefixed payload pfx stop, .result .ok⟩ :: rest => wireWrite payload pfx stop ++ wireOf rest
  | ⟨.receive _, .received bytes⟩ :: rest => wireBlockRead bytes ++ wireOf rest
  | _ :: rest => wireOf rest

end Sys2Proof.Machine
end

