-- ==== Sys2Proof/Tests/Slice0.lean ====
section
/-! SUPPORT. Tests on fixed values, each expected result taken from spec/ (95_test_vectors.md, or the example named), and
a witness for the hypotheses of each statement that has some. -/

namespace Sys2Proof.Tests

open Sys2Proof.Machine

/-! ## Helpers -/

/-- The outcome is a next state that passes `p`. -/
def nextIs (o : Host.Outcome State Fault Refusal) (p : State → Bool) : Bool :=
  match o with
  | .next t => p t
  | .fault _ | .refused _ => false

/-- The start state of vector tables L2-C and L2-G, with the given mirror. -/
def start (m : Mirror) : State :=
  { State.resetWith m false with mv := true, dtOut := ⟨2000, 1, 1, 0, 0, 0, 1, false, false⟩ }

/-- The mirror of L2-G with the given M[0] and M[7]. -/
def mirror (sec ctl : Byte) : Mirror := ⟨sec, 0x00, 0x00, 0x01, 0x01, 0x01, 0x00, ctl⟩

/-- An environment that will give these answers, and answers 1 to getStop. -/
def answering (replies : List (Option CallResult)) (blocks : List Block) (s : State) : State :=
  { s with env := { s.env with replies := replies, stopFlags := [true], blocks := blocks } }

/-- An arbitrary failure code. -/
def c1 : TransportCode := ⟨1⟩

def ok : Option CallResult := some .ok
def err : Option CallResult := some (.err c1)

/-- The Datetime of the spec's examples: 2023-05-11 17:44:33, weekday 4, 24-hour. -/
def may11 : Datetime := ⟨2023, 5, 11, 17, 44, 33, 4, false, false⟩

/-- The block that encodes it, M[7] = 0x03 (R182's example). -/
def may11Block : Block := #v[0x33, 0x44, 0x17, 0x04, 0x11, 0x05, 0x23, 0x03]

/-! ## Decoding: words written out from the table of R98 -/

theorem test_decode_codec : decode 0x0859 = .ok (.bcdDec 0x59) ∧ decode 0x103B = .ok (.bcdEnc 59) := by decide
theorem test_decode_mirror : decode 0x1F00 = .ok (.mirRd 7) ∧ decode 0x2713 = .ok (.mirWr 7 0x13) := by decide
theorem test_decode_mapper : decode 0x2800 = .ok .dtDecode ∧ decode 0x3000 = .ok .dtEncode := by decide
theorem test_decode_clock_bit : decode 0x3800 = .ok .clkEnable ∧ decode 0x4000 = .ok .clkDisable := by decide
theorem test_decode_control_bits :
    decode 0x4802 = .ok (.sqwRateSet 2) ∧ decode 0x5001 = .ok (.sqwEnSet true) ∧ decode 0x5800 = .ok (.outSet false) := by
  decide
theorem test_decode_init_and_reads :
    decode 0x8000 = .ok .init ∧ decode 0x8800 = .ok .readAll ∧ decode 0x9000 = .ok .readDt := by decide
theorem test_decode_writes : decode 0x9800 = .ok .writeDt ∧ decode 0xA000 = .ok .startClockDt := by decide
theorem test_decode_clock_and_square_wave :
    decode 0xA800 = .ok .startClock ∧ decode 0xB000 = .ok .stopClock ∧ decode 0xB802 = .ok (.startSqw 2) := by decide
/-- L2-H: every illegal row. -/
theorem test_decode_illegal :
    [0x0000, 0x0901, 0x0FFF, 0x1801, 0x2801, 0x4804, 0x5002, 0x5802, 0x6000, 0x7FFF, 0x8001, 0x8100, 0xB804, 0xBC01,
     0xC000, 0xFFFF].all (fun w : CommandWord => !(decode w).toBool) = true := by decide
theorem test_decode_table_word : decodeTableWord 16 0xB803 = some (.startSqw 3) ∧ decodeTableWord 16 0x6000 = none := by
  decide

/-! ## WellFormed refuses an ill-formed term of each check -/

theorem test_wellFormed_reserved_op : (Fields.mk 0x0C 0 0).wellFormed = false := by decide
theorem test_wellFormed_index_not_zero : (Fields.mk 0x01 1 0x01).wellFormed = false := by decide
theorem test_wellFormed_imm_not_zero : (Fields.mk 0x17 0 0x04).wellFormed = false := by decide
theorem test_wellFormed_accepts : (Fields.mk 0x04 7 0xFF).wellFormed = true := by decide

/-! ## One step per command -/

/-- L2-A, rows 0x0859 and 0x08FF. -/
theorem test_bcdDec : nextIs (exec (.bcdDec 0x59) State.reset) (·.codecOut == 59) = true ∧
    nextIs (exec (.bcdDec 0xFF) State.reset) (·.codecOut == 165) = true := by decide
/-- L2-B, rows 0x103B and 0x1063. -/
theorem test_bcdEnc : nextIs (exec (.bcdEnc 59) State.reset) (·.codecOut == 0x59) = true ∧
    nextIs (exec (.bcdEnc 99) State.reset) (·.codecOut == 0x99) = true := by decide
/-- L2-C, steps 2 and 9. -/
theorem test_mirRd : nextIs (exec (.mirRd 0) (start (mirror 0x85 0x03))) (·.dataOut == 0x85) = true ∧
    nextIs (exec (.mirRd 5) (start (mirror 0x59 0x03))) (·.dataOut == 0x01) = true := by decide
/-- L2-C, step 5. -/
theorem test_mirWr : nextIs (exec (.mirWr 7 0x90) (start (mirror 0 3)))
    (fun t => t.mirror == mirror 0 0x90 && t.outO && t.sqweO && t.rateO == 0 && !t.pudO) = true := by decide
/-- L2-D, rows 4 and 7. -/
theorem test_dtDecode_pm : nextIs (exec .dtDecode (start ⟨0x00, 0x00, 0x71, 0x02, 0x15, 0x06, 0x24, 0⟩))
    (·.dtOut == ⟨2024, 6, 15, 11, 0, 0, 2, true, true⟩) = true := by decide
theorem test_dtDecode_not_bcd : nextIs (exec .dtDecode (start ⟨0x7F, 0x80, 0x80, 0xFF, 0x00, 0x00, 0xFF, 0⟩))
    (·.dtOut == ⟨2165, 0, 0, 80, 80, 85, 255, false, false⟩) = true := by decide
/-- L2-E, rows 2 and 8. -/
theorem test_dtEncode_pm : nextIs
    (exec .dtEncode { start ⟨0x80, 0xAA, 0xAA, 0xAA, 0xAA, 0xAA, 0xAA, 0x6C⟩ with
      dtIn := ⟨2023, 5, 11, 13, 0, 0, 4, true, true⟩ })
    (·.mirror == ⟨0x80, 0x00, 0x61, 0x04, 0x11, 0x05, 0x23, 0x6C⟩) = true := by decide
theorem test_dtEncode_wraps_and_clamps : nextIs
    (exec .dtEncode { start ⟨0x80, 0xAA, 0xAA, 0xAA, 0xAA, 0xAA, 0xAA, 0x6C⟩ with
      dtIn := ⟨65535, 255, 255, 255, 255, 255, 255, true, true⟩ })
    (·.mirror == ⟨0x95, 0x15, 0x63, 0x07, 0x31, 0x12, 0x35, 0x6C⟩) = true := by decide
/-- L2-F, in its order. -/
theorem test_clkEnable : nextIs (exec .clkEnable (start (mirror 0x85 3))) (·.mirror == mirror 0x05 3) = true := by decide
theorem test_clkDisable : nextIs (exec .clkDisable (start (mirror 0x05 3))) (·.mirror == mirror 0x85 3) = true := by decide
theorem test_sqwRateSet : nextIs (exec (.sqwRateSet 2) (start (mirror 0 0x6C))) (·.mirror.ctl == 0x6E) = true := by decide
theorem test_sqwEnSet : nextIs (exec (.sqwEnSet true) (start (mirror 0 0x6C))) (·.mirror.ctl == 0x7C) = true ∧
    nextIs (exec (.sqwEnSet false) (start (mirror 0 0x13))) (·.mirror.ctl == 0x03) = true := by decide
theorem test_outSet : nextIs (exec (.outSet true) (start (mirror 0 0x6C))) (·.mirror.ctl == 0xEC) = true ∧
    nextIs (exec (.outSet false) (start (mirror 0 0x83))) (·.mirror.ctl == 0x03) = true := by decide
/-- L2-G, T1 and T2. -/
theorem test_init : nextIs (exec .init (answering [ok, ok] [] (start (mirror 0x10 3))))
    (fun t => t.result == .success && t.mv && t.env.trace ==
      [⟨.setAddr 0x68, .result .ok⟩, ⟨.windowBegin 0x3F 56 0x08, .result .ok⟩]) = true := by decide
theorem test_init_fails : nextIs (exec .init (answering [err, ok] [] (start (mirror 0x10 3))))
    (fun t => t.result == .busFail c1 && !t.mv && t.env.trace == [⟨.setAddr 0x68, .result (.err c1)⟩]) = true := by decide
/-- L2-G, T4 and T5. -/
theorem test_readAll : nextIs
    (exec .readAll (answering [ok, ok] [#v[0x25, 0x59, 0x23, 0x07, 0x31, 0x12, 0x99, 0x93]] State.reset))
    (fun t => t.mirror == ⟨0x25, 0x59, 0x23, 0x07, 0x31, 0x12, 0x99, 0x93⟩ && t.mv && t.runO && !t.h12O && t.sqweO &&
      t.rateO == 3 && t.outO && !t.pudO && t.result == .success) = true := by decide
theorem test_readAll_send_fails : nextIs (exec .readAll (answering [err] [] (start (mirror 0x10 3))))
    (fun t => t.mirror == mirror 0x10 3 && !t.mv && t.result == .busFail c1 && t.env.trace ==
      [⟨.getStop, .flag true⟩, ⟨.setRepeatedStart, .none⟩, ⟨.send [0x00], .result (.err c1)⟩, ⟨.setStop true, .none⟩]) = true := by
  decide
/-- R183's example, and L2-G, T7. -/
theorem test_readDt : nextIs
    (exec .readDt (answering [ok, ok] [#v[0xB3, 0x44, 0x17, 0x04, 0x11, 0x05, 0x23, 0x10]] State.reset))
    (fun t => t.dtOut == may11 && !t.runO && t.sqweO) = true := by decide
theorem test_readDt_receive_fails : nextIs (exec .readDt (answering [ok, err] [] (start (mirror 0x10 3))))
    (fun t => t.dtOut == ⟨2000, 1, 1, 0, 0, 0, 1, false, false⟩ && t.result == .busFail c1 && !t.mv) = true := by decide
/-- L2-G, T8. -/
theorem test_writeDt_fails : nextIs
    (exec .writeDt (answering [err] [] { start (mirror 0x10 3) with dtIn := ⟨2024, 2, 30, 8, 5, 7, 5, false, false⟩ }))
    (fun t => t.mirror == ⟨0x07, 0x05, 0x08, 0x05, 0x30, 0x02, 0x24, 0x03⟩ && !t.mv && t.result == .busFail c1 &&
      t.env.trace == [⟨.sendPrefixed [0x07, 0x05, 0x08, 0x05, 0x30, 0x02, 0x24, 0x03] [0x00] true, .result (.err c1)⟩])
      = true := by decide
/-- L2-G, T9. -/
theorem test_startClockDt : nextIs
    (exec .startClockDt (answering [ok] [] { start (mirror 0x90 3) with dtIn := may11 }))
    (fun t => t.mirror == .ofBlock may11Block && t.runO && t.result == .success && t.mv && t.env.trace ==
      [⟨.sendPrefixed [0x33, 0x44, 0x17, 0x04, 0x11, 0x05, 0x23, 0x03] [0x00] true, .result .ok⟩]) = true := by decide
/-- L2-G, T11 and T13. -/
theorem test_startClock : nextIs
    (exec .startClock (answering [ok, ok, ok] [#v[0x85, 0, 0, 1, 1, 1, 0, 3]] (start (mirror 0x10 3))))
    (fun t => t.mirror == mirror 0x05 3 && t.mv && t.runO && registerWrites t.env.trace == [([0x05], [0x00])]) = true := by
  decide
theorem test_startClock_receive_fails : nextIs (exec .startClock (answering [ok, err] [] (start (mirror 0x10 3))))
    (fun t => registerWrites t.env.trace == [] && !t.mv && t.result == .busFail c1) = true := by decide
/-- L2-G, T15. -/
theorem test_stopClock_write_fails : nextIs
    (exec .stopClock (answering [ok, ok, err] [#v[0x05, 0, 0, 1, 1, 1, 0, 3]] (start (mirror 0x10 3))))
    (fun t => t.mirror == mirror 0x85 3 && !t.mv && !t.runO && t.result == .busFail c1 &&
      registerWrites t.env.trace == [([0x85], [0x00])]) = true := by decide
/-- L2-G, T22 and T18. -/
theorem test_startSqw_both : nextIs
    (exec (.startSqw 1) (answering [ok, ok, ok, err] [#v[0x85, 0, 0, 1, 1, 1, 0, 0x11]] (start (mirror 0x85 3))))
    (fun t => t.mirror == mirror 0x05 0x11 && !t.mv && t.result == .busFail c1 && t.env.trace ==
      [⟨.sendPrefixed [0x11] [0x07] true, .result .ok⟩, ⟨.getStop, .flag true⟩, ⟨.setRepeatedStart, .none⟩,
       ⟨.send [0x00], .result .ok⟩, ⟨.receive 8, .received #v[0x85, 0, 0, 1, 1, 1, 0, 0x11]⟩, ⟨.setStop true, .none⟩,
       ⟨.sendPrefixed [0x05] [0x00] true, .result (.err c1)⟩]) = true := by decide
theorem test_startSqw_keeps_other_bits : nextIs
    (exec (.startSqw 2) (answering [ok] [] (start (mirror 0x10 0xEC))))
    (fun t => t.mirror == mirror 0x10 0xFE && t.env.trace == [⟨.sendPrefixed [0xFE] [0x07] true, .result .ok⟩]) = true := by
  decide

/-! ## The step -/

/-- L2-H: an illegal word on the port. -/
theorem test_step_illegal : nextIs (step ({ State.reset with codecOut := 0x59 }.withFetchWord 16 0x0901))
    (· == { State.reset with codecOut := 0x59, result := .illegal }) = true := by decide
/-- Every command of the table runs as the first one after reset, whatever the environment answers. -/
theorem test_step_runs_from_reset :
    [0x0859, 0x1064, 0x1F00, 0x2713, 0x2800, 0x3000, 0x3800, 0x4000, 0x4801, 0x5001, 0x5801, 0x8000, 0x8800, 0x9000,
     0x9800, 0xA000, 0xA800, 0xB000, 0xB801].all
      (fun w => nextIs (step (State.reset.withFetchWord 16 w)) fun _ => true) = true := by decide
/-- U10, R21: an unanswered call leaves the command in progress and the next command on the port. -/
theorem test_step_waits : nextIs
    (step { answering [ok, none, ok] [may11Block] State.reset with pending := [⟨0x8800, may11⟩, ⟨0x2800, may11⟩] })
    (fun t => t.phase == .busy .readAll 3 && t.sample == none && t.pending == [⟨0x2800, may11⟩] && t.mirror == Mirror.zero &&
      nextIs (step t) (fun u => u.phase == .idle && u.mirror == .ofBlock may11Block && u.mv)) = true := by decide
/-- R96, R97: assembler text, and the command that START_CLOCK_TEXT ends in. -/
theorem test_assembly : assembly (.mirWr 7 0x13) = "MIR_WR 7, 19" ∧ rateText 1 = "4096Hz" ∧
    startClockText may11 4 false false = ⟨0xA000, may11⟩ := by decide
/-- R69: the seconds write on the wire. -/
theorem test_wire : wireOf [⟨.sendPrefixed [0x05] [0x00] true, .result .ok⟩] =
    [.start, .address 0x68 false, .data 0x00, .data 0x05, .stop] := by decide

/-! ## Witnesses: a state and operands that meet the hypotheses of each statement that has some -/

/-- L2-C's bundle position: a host presents one word. -/
def presenting (w : CommandWord) (s : State) : State := { s with pending := [⟨w, may11⟩] }

theorem witness_EncodeOfDecodeIsIdentity : decode 0x0859 = .ok (.bcdDec 0x59) := by decide
/-- Both ways to be illegal, at the edge of a reserved range and at the first nonzero index. -/
theorem witness_IllegalWordsWriteOnlyResult :
    (presenting 0x6000 State.reset).phase = .idle ∧ (presenting 0x6000 State.reset).pending = [⟨0x6000, may11⟩] ∧
    (Fields.ofWord 0x6000).op.toNat = 0x0C ∧ (Fields.ofWord 0x7FFF).op.toNat = 0x0F ∧ (Fields.ofWord 0xC000).op.toNat = 0x18 ∧
    Opcode.ofBits (Fields.ofWord 0x0901).op = some .bcdDec ∧ (Fields.ofWord 0x0901).a ≠ 0 ∧
    (Fields.ofWord 0xB804).imm &&& ~~~ Opcode.startSqw.immOperandBits ≠ 0 := by decide
theorem witness_StepRunsDecodedCommand : (presenting 0x9800 State.reset).phase = .idle ∧
    (presenting 0x9800 State.reset).pending = [⟨0x9800, may11⟩] ∧ decode 0x9800 = .ok .writeDt := by decide
theorem witness_StepWithNothingPresentedChangesNothing : State.reset.phase = .idle ∧ State.reset.pending = [] := by decide
/-- READ_DT waiting at its receive, with the events a run has made by then and one more delay ahead. -/
def waiting : State :=
  { answering [none, ok] [may11Block] (presenting 0x2800 (start (mirror 0x85 3))) with
    phase := .busy .readDt 3
    env := ⟨[none, ok], [], [may11Block], 0, openReadEvents true ++ [⟨.send [0x00], .result .ok⟩]⟩ }
theorem witness_PresentedCommandsAreHeldAndTakenInOrder :
    (∃ t, step waiting = .next t) ∧ waiting.phase = .busy .readDt 3 ∧
    (∃ t, step (presenting 0x9800 State.reset) = .next t) ∧ (presenting 0x9800 State.reset).phase = .idle :=
  ⟨⟨_, rfl⟩, rfl, ⟨_, rfl⟩, rfl⟩
theorem witness_PresentedIllegalWord :
    (presenting 0xFFFF State.reset).phase = .idle ∧ (∃ e, decode 0xFFFF = .error e) ∧
      ∃ t, step (presenting 0xFFFF State.reset) = .next t ∧ t.dtIn = State.reset.dtIn ∧ t.pending = [] :=
  ⟨by decide, ⟨_, rfl⟩, _, rfl, by decide, by decide⟩
/-- R82, R84, R86: digits above 9, hour 0 of a 12-hour register and day 0 break the formats. -/
theorem test_formatted : (mirror 0x59 0x03).formatted = true ∧ (mirror 0x5A 0x03).formatted = false ∧
    (mirror 0x60 0x03).formatted = false ∧ ({ mirror 0x00 0x03 with hour := 0x40 } : Mirror).formatted = false ∧
    ({ mirror 0x00 0x03 with day := 0x00 } : Mirror).formatted = false := by decide
theorem witness_UnansweredCallKeepsCommandWaiting :
    waiting.phase = .busy .readDt 3 ∧ 3 ∈ waitPoints .readDt ∧ waiting.env.replies = [none, ok] := by decide
theorem witness_PhaseOutsideSequenceFaults :
    ({ State.reset with phase := .busy .readDt 4 } : State).phase = .busy .readDt 4 ∧ 4 ∉ waitPoints .readDt := by decide
theorem witness_DelayedAnswersDoNotChangeTheOutcome :
    let s := answering [none, ok, none, none, ok, ok] [may11Block] State.reset
    ∃ u, exec .startClock s.withoutDelays = .next u ∧ u.mv = true := ⟨_, rfl, by decide⟩
theorem witness_OutputsAreSampledOnlyWhenReady : State.reset.phase = .idle ∧ waiting.phase = .busy .readDt 3 := by decide
theorem witness_BcdEncWritesPackedBcd : (99 : Byte).toNat ≤ 99 ∧ 99 < (100 : Byte).toNat := by decide
theorem witness_BcdCodecRoundTrips : (99 : Byte).toNat ≤ 99 ∧ isBcd 0x99 = true := by decide
/-- Both hour modes, for the clauses of DtDecodeWritesTheDecodedDatetime. -/
theorem witness_DtDecodeWritesTheDecodedDatetime :
    (0x71 : Byte).getLsbD 6 = true ∧ (0x23 : Byte).getLsbD 6 = false := by decide
/-- The operands of every clause: the 12-hour laws at hours 0 and 12, day 35, month 0, second 75, and 24-hour mode. -/
def oddBundle : Datetime := ⟨2023, 0, 35, 0, 0, 75, 4, true, false⟩
theorem witness_EncodeKeepsClockHaltAndNormalises :
    oddBundle.mode12h = true ∧ oddBundle.hour = 0 ∧ oddBundle.day = 35 ∧ oddBundle.month = 0 ∧ oddBundle.second = 75 := by
  decide
theorem witness_DtEncodeWritesNormalisedBcd : oddBundle.mode12h = true ∧ may11.mode12h = false := by decide
theorem witness_EncodeThenDecodeRoundTrips :
    may11.valid24 = true ∧ Datetime.valid12 ⟨2099, 12, 31, 12, 59, 59, 7, true, true⟩ = true ∧
    Datetime.valid24 ⟨2000, 1, 1, 0, 0, 0, 1, false, false⟩ = true ∧ (1999 : BitVec 16).toNat < 2000 ∧
    2099 < (2100 : BitVec 16).toNat ∧ oddBundle.mode12h = true ∧ oddBundle.hour = 0 := by decide
theorem witness_LocalCommandsSucceedWithoutTransport : isLocal (.mirWr 7 0x13) = true := by decide
theorem witness_MirrorBytesOutsideTheWriteTableStay : (∃ t, exec .writeDt State.reset = .next t) ∧ 7 ∉ mirrorWrites .writeDt :=
  ⟨⟨_, rfl⟩, by decide⟩
/-- A command that writes none of the output registers, and a READ_DT that fails. -/
theorem witness_OutputRegistersAreWrittenOnlyByTheirCommands :
    (∃ t, exec .writeDt State.reset = .next t) ∧
    ∃ t, exec .readDt (answering [err] [] State.reset) = .next t ∧ t.result ≠ .success := ⟨⟨_, rfl⟩, _, rfl, by decide⟩
theorem witness_NoCommandReadsTrustBitOrOldSavedStop : ∃ t, exec .readAll (answering [ok, ok] [may11Block] State.reset) = .next t :=
  ⟨_, rfl⟩
/-- A step that sets MV, and one that clears it. -/
theorem witness_TrustBitFollowsReadsAndFailures :
    (∃ t, step (presenting 0x8800 (answering [ok, ok] [may11Block] State.reset)) = .next t ∧ t.mv = true) ∧
    ∃ t, step (presenting 0x8000 (answering [err] [] (start (mirror 0x10 3)))) = .next t ∧ t.mv = false :=
  ⟨⟨_, rfl, by decide⟩, _, rfl, by decide⟩
/-- For EveryCommandCompletesAndReportsItsFirstFailure, InitSetsAddressThenWindow, ReadAllRefillsTheMirror,
ReadDtDecodesTheFreshBlock, WriteDtSendsTheEncodedBlock, StartClockDtSendsTheBlockWithClockHaltClear,
StartClockRewritesSecondsWithClockHaltClear and StopClockRewritesSecondsWithClockHaltSet, whose one hypothesis it is. -/
theorem witness_prompt_environment : (answering [ok, err, ok] [may11Block] State.reset).prompt = true ∧
    State.reset.prompt = true := by decide
theorem witness_StartSqwDoesNothingWhenAllMatches :
    let m := mirror 0x10 0x11
    m.sec.getLsbD 7 = false ∧ m.ctl.getLsbD 4 = true ∧ m.ctl.toNat % 4 = (1 : BitVec 2).toNat := by decide
theorem witness_StartSqwWritesControlOnceWhenRunning :
    let s := answering [ok] [] (start (mirror 0x10 0x03))
    s.prompt = true ∧ s.mirror.sec.getLsbD 7 = false ∧ s.mirror.ctl.getLsbD 4 = false := by decide
theorem witness_StartSqwOnlyStartsTheClockWhenSettingsMatch :
    let s := answering [ok, ok, ok] [may11Block] (start (mirror 0x85 0x11))
    s.prompt = true ∧ s.mirror.sec.getLsbD 7 = true ∧ s.mirror.ctl.getLsbD 4 = true ∧
      s.mirror.ctl.toNat % 4 = (1 : BitVec 2).toNat := by decide
theorem witness_StartSqwWritesControlThenStartsTheClock :
    let s := answering [ok, ok, ok, ok] [may11Block] (start (mirror 0x85 0x13))
    s.prompt = true ∧ s.mirror.sec.getLsbD 7 = true ∧ s.mirror.ctl.toNat % 4 ≠ (1 : BitVec 2).toNat := by decide
theorem witness_SecondStartSqwWritesNothing :
    let s := answering [ok] [] (start (mirror 0x10 0x03))
    s.prompt = true ∧ s.mirror.sec.getLsbD 7 = false ∧ ∃ t, exec (.startSqw 2) s = .next t ∧ t.result = .success :=
  ⟨by decide, by decide, _, rfl, by decide⟩
theorem witness_StartSqwOnHaltedChipMakesTwoRegisterWrites :
    let s := answering [ok, ok, ok, ok] [#v[0x80, 0, 0, 1, 1, 1, 0, 0x11]] (start (mirror 0x80 0x03))
    s.mirror.sec.getLsbD 7 = true ∧ s.mirror.ctl.getLsbD 4 = false ∧ s.env.replies = [ok, ok, ok, ok] ∧
      s.env.blocks = [#v[0x80, 0, 0, 1, 1, 1, 0, 0x11]] := by decide
theorem witness_StartClockUsesAnswersInOrder :
    let s := answering [ok, ok, err, ok] [may11Block] State.reset
    s.env.replies = some .ok :: some .ok :: some (.err c1) :: [ok] ∧ s.env.stopFlags = [true] ∧
      s.env.blocks = [may11Block] := by decide
theorem witness_RefillOverwritesLocalMirrorChanges :
    let s := answering [ok, ok, ok] [may11Block] State.reset
    changesOnlyMirror (.outSet true) = true ∧ (∃ u, exec (.outSet true) s = .next u ∧ ∃ t', exec .startClock u = .next t') ∧
      ∃ t, exec .startClock s = .next t ∧ t.phase = .idle ∧ t.result = .success :=
  ⟨by decide, ⟨_, rfl, _, rfl⟩, _, rfl, by decide, by decide⟩
theorem witness_StepKeepsPhaseLegalAndNeverStops : waiting.phaseInv := by simp [waiting, State.phaseInv, waitPoints]
theorem witness_StepKeepsFailureUntrusted :
    let s := { State.reset with result := .busFail c1 }
    s.trustInv ∧ ∃ t, step s = .next t := ⟨fun _ _ _ => rfl, _, rfl⟩
theorem witness_StepMakesOnlyTheListedTransfers : waiting.transferInv ∧ ∃ t, step waiting = .next t := by
  refine ⟨?_, _, rfl⟩
  simp only [State.transferInv]
  decide
theorem witness_StepNeverSplitsABlockRead : waiting.unsplitInv ∧ waiting.phase.awaitsReceive = true ∧
    ∃ t, step waiting = .next t := ⟨⟨by decide, fun h => absurd h (by decide), fun _ => by decide⟩, by decide, _, rfl⟩

end Sys2Proof.Tests
end

/-! # What the operations do when the environment's next answers are known

Laws/Ops says what a prompt environment can lead to; the lemmas here give the exact next state, with the answers that
are left over. -/

section
namespace Sys2Proof.Machine

/-! ## One transport call -/

/-- On OK the answer is used up, the event is recorded, and the command goes on. -/
theorem resultCall_of_ok {cmd : Instr} {k : Nat} {c : Call} {onErr : TransportCode → State → State}
    {onOk : State → State} {s : State} {later : List (Option CallResult)} (hr : s.env.replies = some .ok :: later) :
    resultCall cmd k c onErr onOk s =
      onOk { s with env := { s.env with replies := later, trace := s.env.trace ++ [⟨c, .result .ok⟩] } } := by
  simp [resultCall, State.nextReply, hr, State.emit]

/-- A command's last call: RESULT says its answer, MV is kept on OK and cleared on ERR (R11, R189). -/
theorem lastCall_of_reply {cmd : Instr} {k : Nat} {c : Call} {s : State} {r : CallResult}
    {later : List (Option CallResult)} (hr : s.env.replies = some r :: later) :
    resultCall cmd k c busFail (finish .success) s = { s with
      mv := s.mv && decide (r = .ok), result := resultOf r, phase := .idle
      env := { s.env with replies := later, trace := s.env.trace ++ [⟨c, .result r⟩] } } := by
  cases r <;> simp [resultCall, State.nextReply, hr, State.emit, busFail, finish, resultOf]

/-! ## The block read and the clock start -/

theorem State.nextStopFlag_blocks (s : State) : s.nextStopFlag.2.env.blocks = s.env.blocks := by
  unfold State.nextStopFlag; split <;> rfl

/-- `s` after a successful block read that received `b` (R180, R191), with `later` and `blocks` left to answer. -/
def State.afterBlockRead (s : State) (b : Block) (later : List (Option CallResult)) (blocks : List Block) : State :=
  { s with
    mirror := .ofBlock b, mv := true, savedStop := s.nextStopFlag.1
    env := { s.nextStopFlag.2.env with
      replies := later, blocks := blocks, trace := s.env.trace ++ readEvents s.nextStopFlag.1 b } }

/-- The receive answered OK with `b`: the restore follows it, and the mirror is filled (R180). -/
theorem receiveStage_of_ok {cmd : Instr} {k : Nat} {after : State → State} {s : State} {b : Block}
    {later : List (Option CallResult)} {blocks : List Block}
    (hr : s.env.replies = some .ok :: later) (hb : s.env.blocks = b :: blocks) :
    receiveStage cmd k after s = after { s with
      mirror := .ofBlock b, mv := true
      env := { s.env with
        replies := later, blocks := blocks
        trace := s.env.trace ++ [⟨.receive 8, .received b⟩, ⟨.setStop s.savedStop, .none⟩] } } := by
  simp [receiveStage, State.nextReply, hr, State.nextBlock, hb, restoreStop, State.emit]

/-- A block read whose pointer send and receive are answered OK goes on from `State.afterBlockRead`. -/
theorem blockRead_of_ok {cmd : Instr} {k : Nat} {after : State → State} {s : State} {b : Block}
    {later : List (Option CallResult)} {blocks : List Block}
    (hr : s.env.replies = some .ok :: some .ok :: later) (hb : s.env.blocks = b :: blocks) :
    blockRead cmd k after s = after (s.afterBlockRead b later blocks) := by
  obtain ⟨same, tr⟩ := s.nextStopFlag_same
  have replies := s.nextStopFlag_replies.trans hr
  have hblocks := s.nextStopFlag_blocks.trans hb
  rcases h : s.nextStopFlag with ⟨f, s₁⟩
  simp only [h] at same tr replies hblocks
  simp only [blockRead, h, sendPointerStage]
  rw [resultCall_of_ok (by simpa using replies), receiveStage_of_ok rfl (by simpa using hblocks), same]
  simp [State.afterBlockRead, h, tr, readEvents, openReadEvents, secondsAddress, State.emit]

/-- `s` after a clock start that received `b` and whose seconds write was answered `r` (R186). -/
def State.afterClockStart (s : State) (b : Block) (r : CallResult) (later : List (Option CallResult))
    (blocks : List Block) : State :=
  let s₁ := s.afterBlockRead b later blocks
  { s₁ with
    mirror := (Mirror.ofBlock b).clearCh, mv := decide (r = .ok), result := resultOf r, phase := .idle
    env := { s₁.env with trace := s₁.env.trace ++ [writeEvent [b[0] &&& 0x7F] 0x00 r] } }

theorem State.afterClockStart_trace (s : State) (b : Block) (r : CallResult) (later : List (Option CallResult))
    (blocks : List Block) : (s.afterClockStart b r later blocks).env.trace =
      s.env.trace ++ readEvents s.nextStopFlag.1 b ++ [writeEvent [b[0] &&& 0x7F] 0x00 r] := rfl

@[simp] theorem State.afterClockStart_mirror (s : State) (b : Block) (r : CallResult)
    (later : List (Option CallResult)) (blocks : List Block) :
    (s.afterClockStart b r later blocks).mirror = (Mirror.ofBlock b).clearCh := rfl

/-- A clock start whose block read is answered OK goes on to the seconds write and ends the command there. -/
theorem clockStart_of_replies {cmd : Instr} {k : Nat} {s : State} {b : Block} {r : CallResult}
    {later : List (Option CallResult)} {blocks : List Block}
    (hr : s.env.replies = some .ok :: some .ok :: some r :: later) (hb : s.env.blocks = b :: blocks) :
    clockStart cmd k s = s.afterClockStart b r later blocks := by
  rw [clockStart, blockRead_of_ok hr hb, clockStartWrite, secondsWriteStage, registerWrite, lastCall_of_reply rfl]
  simp [State.afterClockStart, State.afterBlockRead, Mirror.clearCh, Mirror.ofBlock, writeEvent, secondsAddress]

/-! ## START_SQW -/

/-- With the square wave disabled START_SQW always makes the control write, of the byte with the new settings (R188). -/
theorem startSquareWave_of_sqwe_false (rate : BitVec 2) {s : State} (h : s.mirror.sqwe = false) :
    startSquareWave rate s = controlWriteStage rate { s with mirror := s.mirror.setSquareWave rate } := by
  simp [startSquareWave, h]

/-- `s` after START_SQW has made its control write and got OK, with `later` left to answer (R188). -/
def State.afterControlWrite (s : State) (rate : BitVec 2) (later : List (Option CallResult)) : State :=
  { s with
    mirror := s.mirror.setSquareWave rate
    env := { s.env with
      replies := later, trace := s.env.trace ++ [writeEvent [(s.mirror.setSquareWave rate).ctl] 0x07 .ok] } }

theorem State.afterControlWrite_trace (s : State) (rate : BitVec 2) (later : List (Option CallResult)) :
    (s.afterControlWrite rate later).env.trace =
      s.env.trace ++ [writeEvent [(s.mirror.setSquareWave rate).ctl] 0x07 .ok] := rfl

/-- The control write takes no stop flag: the clock start gets the one that was next. -/
@[simp] theorem State.afterControlWrite_nextStopFlag (s : State) (rate : BitVec 2) (later : List (Option CallResult)) :
    (s.afterControlWrite rate later).nextStopFlag.1 = s.nextStopFlag.1 := by
  cases h : s.env.stopFlags <;> simp [State.nextStopFlag, State.afterControlWrite, h]

/-- On a halted chip the clock start follows a control write answered OK (R188). -/
theorem controlWriteStage_of_ok_of_ch (rate : BitVec 2) {s : State} {later : List (Option CallResult)}
    (hch : s.mirror.ch = true) (hr : s.env.replies = some .ok :: later) :
    controlWriteStage rate { s with mirror := s.mirror.setSquareWave rate } =
      clockStart (.startSqw rate) 1 (s.afterControlWrite rate later) := by
  calc controlWriteStage rate { s with mirror := s.mirror.setSquareWave rate }
    _ = startIfHalted rate (s.afterControlWrite rate later) := resultCall_of_ok hr
    _ = clockStart (.startSqw rate) 1 (s.afterControlWrite rate later) := if_pos hch

/-- START_SQW on a halted chip with the square wave disabled, its first three answers being OK: the control write,
then the clock start (R190 item 2). -/
theorem startSquareWave_of_halted_of_replies (rate : BitVec 2) {s : State} {b : Block} {r : CallResult}
    {later : List (Option CallResult)} {blocks : List Block} (hch : s.mirror.ch = true) (hsqwe : s.mirror.sqwe = false)
    (hr : s.env.replies = some .ok :: some .ok :: some .ok :: some r :: later) (hb : s.env.blocks = b :: blocks) :
    startSquareWave rate s =
      (s.afterControlWrite rate (some .ok :: some .ok :: some r :: later)).afterClockStart b r later blocks := by
  calc startSquareWave rate s
    _ = controlWriteStage rate { s with mirror := s.mirror.setSquareWave rate } :=
      startSquareWave_of_sqwe_false rate hsqwe
    _ = clockStart (.startSqw rate) 1 (s.afterControlWrite rate _) := controlWriteStage_of_ok_of_ch rate hch hr
    _ = _ := clockStart_of_replies rfl hb

end Sys2Proof.Machine
end

/-! # START_SQW on a halted chip (R190 item 2) -/

section
namespace Sys2Proof.Machine

/-! ## The mirror bits that the status outputs show -/

@[simp] theorem Mirror.setSquareWave_sqwe (m : Mirror) (rate : BitVec 2) : (m.setSquareWave rate).sqwe = true := by
  simp [Mirror.sqwe, Mirror.setSquareWave]

@[simp] theorem Mirror.setSquareWave_rs (m : Mirror) (rate : BitVec 2) : (m.setSquareWave rate).rs = rate := by
  ext j hj
  have : j = 0 ∨ j = 1 := by omega
  rcases this with rfl | rfl <;> simp [Mirror.rs, Mirror.setSquareWave]

@[simp] theorem Mirror.clearCh_ch (m : Mirror) : m.clearCh.ch = false := by simp [Mirror.ch, Mirror.clearCh]

/-! ## The register writes of a trace -/

theorem registerWrites_append (es fs : List Event) :
    registerWrites (es ++ fs) = registerWrites es ++ registerWrites fs :=
  List.filterMap_append

@[simp] theorem registerWrites_nil : registerWrites [] = [] := rfl

@[simp] theorem registerWrites_writeEvent_cons (payload : List Byte) (reg : Byte) (r : CallResult) (es : List Event) :
    registerWrites (writeEvent payload reg r :: es) = (payload, [reg]) :: registerWrites es := rfl

/-- A block read is no register write (92_eei_decisions.md D35). -/
@[simp] theorem registerWrites_readEvents (f : Bool) (b : Block) : registerWrites (readEvents f b) = [] := rfl

end Sys2Proof.Machine
end

section
open Sys2Proof Sys2Proof.Machine

/-- Settles O46: with SQWE clear the command makes the control write, and with CH set the clock start follows it; the
block read between the two register writes is none itself. The mirror then holds the chip's block with CH cleared, so
it has the new settings if the chip returns the control byte written. -/
theorem startSqwOnHaltedChipMakesTwoRegisterWrites : Obligations.StartSqwOnHaltedChipMakesTwoRegisterWrites := by
  intro r s b later blocks hch hsqwe hr hb
  have run := startSquareWave_of_halted_of_replies r hch hsqwe hr hb
  refine ⟨_, writeEvent [(s.mirror.setSquareWave r).ctl] 0x07 .ok :: (readEvents s.nextStopFlag.1 b ++
    [writeEvent [b[0] &&& 0x7F] 0x00 .ok]), (s.mirror.setSquareWave r).ctl, b[0] &&& 0x7F,
    congrArg Host.Outcome.next run, rfl, ?trace, ?writes, ?running, ?settings⟩
  case trace => simp [State.afterClockStart_trace, State.afterControlWrite_trace]
  case writes => simp [registerWrites_append]
  case running => simp [State.runO]
  case settings =>
    intro returned
    have rs : (Mirror.ofBlock b).rs = (s.mirror.setSquareWave r).rs := congrArg (·.extractLsb' 0 2) returned
    have sqwe : (Mirror.ofBlock b).sqwe = (s.mirror.setSquareWave r).sqwe := congrArg (·.getLsbD 4) returned
    exact ⟨rs.trans (by simp), sqwe.trans (by simp)⟩

end

/-! # The commands as sequences of calls

A command outside the sequencer is one update of the registers; every other command is built from a few forms: finish,
a mirror update, a choice by the mirror, one call, and the block read. `Sequence` names the forms, and each fact about
all commands is one induction over it. -/

section
namespace Sys2Proof.Machine

/-! ## Commands outside the sequencer -/

/-- What a command outside the transaction sequencer writes before it finishes (R111, R113, R120, R121, R141, R143,
R160 to R164). -/
def localEffect : Instr → State → State
  | .bcdDec imm, s => { s with codecOut := decodeBcd imm }
  | .bcdEnc imm, s => { s with codecOut := encodeBcd imm }
  | .mirRd a, s => { s with dataOut := s.mirror.get a }
  | .mirWr a imm, s => { s with mirror := s.mirror.set a imm }
  | .dtDecode, s => { s with dtOut := decodeDT s.mirror }
  | .dtEncode, s => { s with mirror := encodeDT s.mirror s.dtIn }
  | .clkEnable, s => { s with mirror := s.mirror.clearCh }
  | .clkDisable, s => { s with mirror := s.mirror.setCh }
  | .sqwRateSet rate, s => { s with mirror := s.mirror.setRate rate }
  | .sqwEnSet enable, s => { s with mirror := s.mirror.setSqwe enable }
  | .outSet level, s => { s with mirror := s.mirror.setOut level }
  | .init, s | .readAll, s | .readDt, s | .writeDt, s | .startClockDt, s | .startClock, s | .stopClock, s
  | .startSqw _, s => s

theorem exec_of_isLocal {i : Instr} (h : isLocal i = true) (s : State) :
    exec i s = .next (finish .success (localEffect i s)) := by
  cases i with
  | init | readAll | readDt | writeDt | startClockDt | startClock | stopClock | startSqw => cases h
  | _ => rfl

section
variable (i : Instr) (s : State)

@[simp] theorem localEffect_mv : (localEffect i s).mv = s.mv := by cases i <;> simp only [localEffect]
@[simp] theorem localEffect_savedStop : (localEffect i s).savedStop = s.savedStop := by cases i <;> simp only [localEffect]
@[simp] theorem localEffect_dtIn : (localEffect i s).dtIn = s.dtIn := by cases i <;> simp only [localEffect]
@[simp] theorem localEffect_pending : (localEffect i s).pending = s.pending := by cases i <;> simp only [localEffect]
@[simp] theorem localEffect_env : (localEffect i s).env = s.env := by cases i <;> simp only [localEffect]

theorem localEffect_codecOut (h : ∀ b, i ≠ .bcdDec b ∧ i ≠ .bcdEnc b) : (localEffect i s).codecOut = s.codecOut := by
  cases i with
  | bcdDec b => exact absurd rfl (h b).1
  | bcdEnc b => exact absurd rfl (h b).2
  | _ => simp only [localEffect]

theorem localEffect_dataOut (h : ∀ a, i ≠ .mirRd a) : (localEffect i s).dataOut = s.dataOut := by
  cases i with
  | mirRd a => exact absurd rfl (h a)
  | _ => simp only [localEffect]

theorem localEffect_dtOut (h : i ≠ .dtDecode) : (localEffect i s).dtOut = s.dtOut := by
  cases i with
  | dtDecode => exact absurd rfl h
  | _ => simp only [localEffect]

end

/-! ## The mirror bytes a command owns (R23) -/

/-- From `m` to `m'` the command changes only bytes that R23 marks as its own, and DT_ENCODE and WRITE_DT keep CH. -/
def WritesOwnBytes (cmd : Instr) (m m' : Mirror) : Prop :=
  (∀ a, a ∉ mirrorWrites cmd → m'.get a = m.get a) ∧ (cmd = .dtEncode ∨ cmd = .writeDt → sameBit m'.sec m.sec 7)

theorem WritesOwnBytes.refl (cmd : Instr) (m : Mirror) : WritesOwnBytes cmd m m := ⟨fun _ _ => rfl, fun _ => rfl⟩

theorem WritesOwnBytes.trans {cmd : Instr} {m₁ m₂ m₃ : Mirror} (h₁ : WritesOwnBytes cmd m₁ m₂)
    (h₂ : WritesOwnBytes cmd m₂ m₃) : WritesOwnBytes cmd m₁ m₃ :=
  ⟨fun a ha => (h₂.1 a ha).trans (h₁.1 a ha), fun hc => (h₂.2 hc).trans (h₁.2 hc)⟩

/-- A command that writes all eight bytes (R182, R183, R186 to R188) may leave any mirror. -/
theorem WritesOwnBytes.of_all {cmd : Instr} (h : ∀ a, a ∈ mirrorWrites cmd) (m m' : Mirror) :
    WritesOwnBytes cmd m m' :=
  ⟨fun a ha => absurd (h a) ha, fun hc => by rcases hc with rfl | rfl <;> exact absurd (h 7) (by decide)⟩

theorem WritesOwnBytes.sec {cmd : Instr} (h : 0 ∈ mirrorWrites cmd) (hc : cmd ≠ .dtEncode ∧ cmd ≠ .writeDt) (m : Mirror)
    (v : Byte) : WritesOwnBytes cmd m { m with sec := v } := by
  have set : m.set 0 v = { m with sec := v } := by simp [Mirror.set]
  exact ⟨fun a ha => set ▸ m.get_set_other 0 a v fun e => ha (e ▸ h), fun h' => (not_or.mpr hc h').elim⟩

theorem WritesOwnBytes.ctl {cmd : Instr} (h : 7 ∈ mirrorWrites cmd) (m : Mirror) (v : Byte) :
    WritesOwnBytes cmd m { m with ctl := v } := by
  have set : m.set 7 v = { m with ctl := v } := by simp [Mirror.set]
  exact ⟨fun a ha => set ▸ m.get_set_other 7 a v fun e => ha (e ▸ h), fun _ => rfl⟩

/-- encodeDT keeps CH: an encoded second is at most 59, so its tens digit leaves bit 7 clear (R142). -/
theorem encodeDT_sameBit_ch (m : Mirror) (dt : Datetime) : sameBit (encodeDT m dt).sec m.sec 7 := by
  have clear : ∀ v : Byte, v.toNat ≤ 59 → (encodeBcd v)[7] = false := by decide
  have small : (BitVec.ofNat 8 (dt.second.toNat % 60)).toNat ≤ 59 := by rw [BitVec.toNat_ofNat]; omega
  simp [sameBit, encodeDT, clear _ small]

/-- encodeDT writes every byte but M[7], and keeps CH (R142). -/
theorem WritesOwnBytes.encodeDT {cmd : Instr} (h : ∀ a : BitVec 3, a ≠ 7 → a ∈ mirrorWrites cmd) (m : Mirror)
    (dt : Datetime) : WritesOwnBytes cmd m (encodeDT m dt) := by
  refine ⟨fun a ha => ?_, fun _ => encodeDT_sameBit_ch m dt⟩
  obtain rfl : a = 7 := by_contra fun ne => ha (h a ne)
  rfl

theorem localEffect_writesOwnBytes (i : Instr) (s : State) : WritesOwnBytes i s.mirror (localEffect i s).mirror := by
  cases i with
  | mirWr a imm => exact ⟨fun b hb => Mirror.get_set_other _ _ _ _ (by simpa [mirrorWrites] using hb), by simp⟩
  | dtEncode => exact .encodeDT (by decide) _ _
  | clkEnable | clkDisable => exact .sec (by decide) (by decide) _ _
  | sqwRateSet _ | sqwEnSet _ | outSet _ => exact .ctl (by simp [mirrorWrites]) _ _
  | _ => simpa only [localEffect] using WritesOwnBytes.refl _ _

/-! ## The forms of a transaction -/

/-- `f` is call `k` of `cmd` with `abort_on` its answer (R11), then `next`. -/
inductive AbortingCall (cmd : Instr) (k : Nat) (next : State → State) : (State → State) → Prop
  | mk (c : Mirror → Call) : (∀ m, (c m).allowed = true) →
      AbortingCall cmd k next fun s => resultCall cmd k (c s.mirror) busFail next s

/-- `f` is what command `cmd` does from some point of its sequence to its end (R180 to R188): each form is a rule of
composition, and each call is one whose delayed answer `waitingStage` goes on from. -/
inductive Sequence (cmd : Instr) : (State → State) → Prop
  | effect : isLocal cmd = true → Sequence cmd fun s => finish .success (localEffect cmd s)
  | finish : Sequence cmd (finish .success)
  | publish : cmd = .readDt → Sequence cmd publishDatetime
  /-- An update of the mirror, which may use DT_IN. -/
  | write {f} (g : Mirror → Datetime → Mirror) : (∀ m d, WritesOwnBytes cmd m (g m d)) → Sequence cmd f →
      Sequence cmd fun s => f { s with mirror := g s.mirror s.dtIn }
  /-- A choice by the mirror (R188). -/
  | branch {f g} (p : Mirror → Bool) : Sequence cmd f → Sequence cmd g →
      Sequence cmd fun s => if p s.mirror then f s else g s
  | call {k next f} : AbortingCall cmd k next f → Sequence cmd next → waitingStage cmd k = some f → Sequence cmd f
  /-- A block read (R180). -/
  | blockRead {k next} : (∀ a, a ∈ mirrorWrites cmd) → Sequence cmd next →
      waitingStage cmd (k + 2) = some (sendPointerStage cmd (k + 2) next) →
      waitingStage cmd (k + 3) = some (receiveStage cmd (k + 3) next) → Sequence cmd (blockRead cmd k next)

/-- `f` is what `cmd` does from its waiting point `k` on. -/
inductive WaitingForm (cmd : Instr) (k : Nat) : (State → State) → Prop
  | call {next f} : AbortingCall cmd k next f → Sequence cmd next → WaitingForm cmd k f
  | sendPointer {next} : (∀ a, a ∈ mirrorWrites cmd) → Sequence cmd next →
      waitingStage cmd (k + 1) = some (receiveStage cmd (k + 1) next) → WaitingForm cmd k (sendPointerStage cmd k next)
  | receive {next} : (∀ a, a ∈ mirrorWrites cmd) → Sequence cmd next → WaitingForm cmd k (receiveStage cmd k next)

/-! ## The calls and the ends of the commands -/

section
variable {cmd : Instr} {k : Nat}

theorem secondsWriteStage_call : AbortingCall cmd k (finish .success) (secondsWriteStage cmd k) :=
  .mk (fun m => .sendPrefixed [m.sec] [secondsAddress] true) fun _ => rfl

theorem blockWriteStage_call : AbortingCall cmd k (finish .success) (blockWriteStage cmd k) :=
  .mk (fun m => .sendPrefixed m.toList [secondsAddress] true) fun _ => rfl

theorem clockStartWrite_sequence (hm : ∀ a, a ∈ mirrorWrites cmd)
    (h : waitingStage cmd k = some (secondsWriteStage cmd k)) : Sequence cmd (clockStartWrite cmd k) :=
  .write (fun m _ => m.clearCh) (fun _ _ => .of_all hm _ _) (.call secondsWriteStage_call .finish h)

end

theorem windowBeginStage_call : AbortingCall .init 1 (finish .success) windowBeginStage :=
  .mk (fun _ => .windowBegin Config.nvMax Config.nvCapacity Config.nvMin) fun _ => rfl

theorem setAddrStage_call : AbortingCall .init 0 windowBeginStage setAddrStage :=
  .mk (fun _ => .setAddr Config.deviceAddress) fun _ => rfl

theorem controlWriteStage_call (rate : BitVec 2) :
    AbortingCall (.startSqw rate) 0 (startIfHalted rate) (controlWriteStage rate) :=
  .mk (fun m => .sendPrefixed [m.ctl] [controlAddress] true) fun _ => rfl

theorem windowBeginStage_sequence : Sequence .init windowBeginStage := .call windowBeginStage_call .finish rfl

theorem clockStopWrite_sequence : Sequence .stopClock clockStopWrite :=
  .write (fun m _ => m.setCh) (fun _ _ => .of_all (by decide) _ _) (.call secondsWriteStage_call .finish rfl)

theorem mem_mirrorWrites_startSqw (rate : BitVec 2) (a : BitVec 3) : a ∈ mirrorWrites (.startSqw rate) := by
  have all : ∀ a : BitVec 3, a ∈ mirrorWrites (.startSqw 0) := by decide
  exact all a

theorem startIfHalted_sequence (rate : BitVec 2) : Sequence (.startSqw rate) (startIfHalted rate) :=
  .branch Mirror.ch
    (.blockRead (mem_mirrorWrites_startSqw rate) (clockStartWrite_sequence (mem_mirrorWrites_startSqw rate) rfl) rfl rfl)
    .finish

theorem startSquareWave_sequence (rate : BitVec 2) : Sequence (.startSqw rate) (startSquareWave rate) :=
  .branch (fun m => !m.ch && m.sqwe && m.rs == rate) .finish <|
    .branch (fun m => !m.sqwe || m.rs != rate)
      (.write (fun m _ => m.setSquareWave rate) (fun _ _ => .of_all (mem_mirrorWrites_startSqw rate) _ _)
        (.call (controlWriteStage_call rate) (startIfHalted_sequence rate) rfl))
      (startIfHalted_sequence rate)

/-! ## Every command, from its start and from each waiting point -/

/-- Every command answers a next state from every state, by one sequence. -/
theorem exec_sequence (i : Instr) : ∃ f, Sequence i f ∧ ∀ s, exec i s = .next (f s) := by
  cases i with
  | init => exact ⟨_, .call setAddrStage_call windowBeginStage_sequence rfl, fun _ => rfl⟩
  | readAll => exact ⟨_, .blockRead (by decide) .finish rfl rfl, fun _ => rfl⟩
  | readDt => exact ⟨_, .blockRead (by decide) (.publish rfl) rfl rfl, fun _ => rfl⟩
  | writeDt =>
    exact ⟨_, .write encodeDT (.encodeDT (by decide)) (.call blockWriteStage_call .finish rfl), fun _ => rfl⟩
  | startClockDt =>
    exact ⟨_, .write (fun m d => encodeDT m.clearCh d) (fun m d => .trans (.sec (by decide) (by decide) m _)
      (.encodeDT (by decide) _ d)) (.call blockWriteStage_call .finish rfl), fun _ => rfl⟩
  | startClock => exact ⟨_, .blockRead (by decide) (clockStartWrite_sequence (by decide) rfl) rfl rfl, fun _ => rfl⟩
  | stopClock => exact ⟨_, .blockRead (by decide) clockStopWrite_sequence rfl rfl, fun _ => rfl⟩
  | startSqw rate => exact ⟨_, startSquareWave_sequence rate, fun _ => rfl⟩
  | _ => exact ⟨_, .effect rfl, exec_of_isLocal rfl⟩

theorem waitingStage_form {cmd : Instr} {k : Nat} {f : State → State} (h : waitingStage cmd k = some f) :
    WaitingForm cmd k f := by
  unfold waitingStage at h
  split at h <;> cases h
  case h_1 => exact .call setAddrStage_call windowBeginStage_sequence
  case h_2 => exact .call windowBeginStage_call .finish
  case h_3 => exact .sendPointer (by decide) .finish rfl
  case h_4 => exact .receive (by decide) .finish
  case h_5 => exact .sendPointer (by decide) (.publish rfl) rfl
  case h_6 => exact .receive (by decide) (.publish rfl)
  case h_7 | h_8 => exact .call blockWriteStage_call .finish
  case h_9 => exact .sendPointer (by decide) (clockStartWrite_sequence (by decide) rfl) rfl
  case h_10 => exact .receive (by decide) (clockStartWrite_sequence (by decide) rfl)
  case h_12 => exact .sendPointer (by decide) clockStopWrite_sequence rfl
  case h_13 => exact .receive (by decide) clockStopWrite_sequence
  case h_15 rate => exact .call (controlWriteStage_call rate) (startIfHalted_sequence rate)
  case h_16 rate =>
    exact .sendPointer (mem_mirrorWrites_startSqw rate) (clockStartWrite_sequence (mem_mirrorWrites_startSqw rate) rfl) rfl
  case h_17 rate =>
    exact .receive (mem_mirrorWrites_startSqw rate) (clockStartWrite_sequence (mem_mirrorWrites_startSqw rate) rfl)
  case h_11 | h_14 | h_18 => exact .call secondsWriteStage_call .finish

/-- The waiting points of a command are the calls it goes on from (R33, log 6). -/
theorem waitingStage_isSome_iff (cmd : Instr) (k : Nat) : (waitingStage cmd k).isSome ↔ k ∈ waitPoints cmd := by
  constructor
  · unfold waitingStage
    split <;> simp [waitPoints]
  · suffices all : ∀ k ∈ waitPoints cmd, (waitingStage cmd k).isSome from all k
    cases cmd <;> simp [waitPoints, waitingStage]

end Sys2Proof.Machine
end

/-! # What a step can do

`Runs` says once what a command can do from a point of its sequence to the end of the step, one small change after the
other; an invariant of every step is an induction over it. -/

section
namespace Sys2Proof.Machine

/-- From `s`, a point in the sequence of `cmd`, the step can end in `t`. Every call on the way is one that the core may
make (R58, R60). -/
inductive Runs (cmd : Instr) : State → State → Prop
  /-- The next call is not answered (R21, R33, U10). -/
  | wait {s s₁ k} : SameButAnswers s s₁ → s.prompt = false → k ∈ waitPoints cmd → Runs cmd s (s₁.waitAt cmd k)
  | effect {s} : isLocal cmd = true → Runs cmd s (finish .success (localEffect cmd s))
  | finish {s} : Runs cmd s (finish .success s)
  | publish {s} : cmd = .readDt → Runs cmd s (publishDatetime s)
  | write {s t} (m : Mirror) : WritesOwnBytes cmd s.mirror m → Runs cmd { s with mirror := m } t → Runs cmd s t
  /-- The environment gives an answer. -/
  | answer {s s₁ t} : SameButAnswers s s₁ → (s.prompt = true → s₁.prompt = true) → Runs cmd s₁ t → Runs cmd s t
  | saveStop {s t} (f : Bool) : Runs cmd { s with savedStop := f } t → Runs cmd s t
  /-- A call that does not fail. -/
  | emit {s t} (c : Call) (a : Answer) : c.allowed = true → (⟨c, a⟩ : Event).failure = none →
      Runs cmd (s.emit c a) t → Runs cmd s t
  | callErr {s} (c : Call) (e : TransportCode) : c.allowed = true → Runs cmd s (busFail e (s.emit c (.result (.err e))))
  /-- The pointer send of a block read fails (R180). -/
  | sendErr {s} (e : TransportCode) :
      Runs cmd s (busFail e (restoreStop (s.emit (.send [secondsAddress]) (.result (.err e)))))
  | receiveOk {s t} (b : Block) : (∀ a, a ∈ mirrorWrites cmd) →
      Runs cmd { restoreStop (s.emit (.receive 8) (.received b)) with mirror := .ofBlock b, mv := true } t → Runs cmd s t
  | receiveErr {s} (e : TransportCode) : (∀ a, a ∈ mirrorWrites cmd) →
      Runs cmd s (busFail e (restoreStop (s.emit (.receive 8) (.result (.err e)))).scrambleMirror)

section
variable {cmd : Instr} {k : Nat} {next : State → State}

theorem resultCall_runs {c : Call} {onErr : TransportCode → State → State} (hk : k ∈ waitPoints cmd)
    (hc : c.allowed = true) (err : ∀ e s, Runs cmd s (onErr e (s.emit c (.result (.err e)))))
    (ok : ∀ s, Runs cmd s (next s)) (s : State) : Runs cmd s (resultCall cmd k c onErr next s) := by
  obtain ⟨s₁, same, ⟨delayed, e⟩ | ⟨keep, e | ⟨code, e⟩⟩⟩ := resultCall_cases cmd k c onErr next s <;> rw [e]
  · exact .wait same delayed hk
  · exact .answer same keep (.emit _ _ hc rfl (ok _))
  · exact .answer same keep (err code _)

theorem AbortingCall.runs {f : State → State} (h : AbortingCall cmd k next f) (hk : k ∈ waitPoints cmd)
    (ok : ∀ s, Runs cmd s (next s)) (s : State) : Runs cmd s (f s) := by
  obtain ⟨c, hc⟩ := h
  exact resultCall_runs hk (hc _) (fun e _ => .callErr _ e (hc _)) ok s

theorem receiveStage_runs (hk : k ∈ waitPoints cmd) (hm : ∀ a, a ∈ mirrorWrites cmd) (ok : ∀ s, Runs cmd s (next s))
    (s : State) : Runs cmd s (receiveStage cmd k next s) := by
  obtain ⟨s₁, same, ⟨delayed, e⟩ | ⟨keep, ⟨b, e⟩ | ⟨code, e⟩⟩⟩ := receiveStage_cases cmd k next s <;> rw [e]
  · exact .wait same delayed hk
  · exact .answer same keep (.receiveOk b hm (ok _))
  · exact .answer same keep (.receiveErr code hm)

theorem sendPointerStage_runs (hk : k ∈ waitPoints cmd) (hk₁ : k + 1 ∈ waitPoints cmd) (hm : ∀ a, a ∈ mirrorWrites cmd)
    (ok : ∀ s, Runs cmd s (next s)) (s : State) : Runs cmd s (sendPointerStage cmd k next s) :=
  resultCall_runs hk rfl (fun e _ => .sendErr e) (receiveStage_runs hk₁ hm ok) s

theorem blockRead_runs (hk : k + 2 ∈ waitPoints cmd) (hk₁ : k + 3 ∈ waitPoints cmd) (hm : ∀ a, a ∈ mirrorWrites cmd)
    (ok : ∀ s, Runs cmd s (next s)) (s : State) : Runs cmd s (blockRead cmd k next s) := by
  refine .answer s.nextStopFlag_same (fun h => ?_) (.saveStop s.nextStopFlag.1 (.emit _ _ rfl rfl (.emit _ _ rfl rfl
    (sendPointerStage_runs hk hk₁ hm ok _))))
  rwa [State.prompt, s.nextStopFlag_replies]

end

theorem mem_waitPoints_of_waitingStage {cmd : Instr} {k : Nat} {f : State → State} (h : waitingStage cmd k = some f) :
    k ∈ waitPoints cmd :=
  (waitingStage_isSome_iff cmd k).mp (Option.isSome_of_eq_some h)

theorem Sequence.runs {cmd : Instr} {f : State → State} (h : Sequence cmd f) (s : State) : Runs cmd s (f s) := by
  induction h generalizing s with
  | effect isLocal => exact .effect isLocal
  | finish => exact .finish
  | publish readDt => exact .publish readDt
  | write g own _ ih => exact .write _ (own _ _) (ih _)
  | branch p _ _ ihf ihg =>
    beta_reduce
    split
    · exact ihf s
    · exact ihg s
  | call call _ stage ih => exact call.runs (mem_waitPoints_of_waitingStage stage) ih s
  | blockRead all _ send receive ih =>
    exact blockRead_runs (mem_waitPoints_of_waitingStage send) (mem_waitPoints_of_waitingStage receive) all ih s

theorem exec_runs {i : Instr} {s t : State} (h : exec i s = .next t) : Runs i s t := by
  obtain ⟨f, seq, run⟩ := exec_sequence i
  obtain rfl : f s = t := Host.Outcome.next.inj ((run s).symm.trans h)
  exact seq.runs s

theorem waitingStage_runs {cmd : Instr} {k : Nat} {f : State → State} (h : waitingStage cmd k = some f) (s : State) :
    Runs cmd s (f s) := by
  have hk := mem_waitPoints_of_waitingStage h
  cases waitingStage_form h with
  | call call seq => exact call.runs hk seq.runs s
  | sendPointer all seq receive =>
    exact sendPointerStage_runs hk (mem_waitPoints_of_waitingStage receive) all seq.runs s
  | receive all seq => exact receiveStage_runs hk all seq.runs s

/-! ## The step -/

section
variable {s : State}

theorem step_of_busy {cmd : Instr} {k : Nat} (h : s.phase = .busy cmd k) : step s = resume cmd k s := by
  simp [step, h]

theorem step_of_nothing (h : s.phase = .idle) (hp : s.pending = []) : step s = .next s := by simp [step, h, hp]

theorem step_of_presented {c : Command} {rest : List Command} (h : s.phase = .idle) (hp : s.pending = c :: rest) :
    step s = runPresented c rest s := by
  simp [step, h, hp]

theorem step_of_decode {c : Command} {rest : List Command} {i : Instr} (h : s.phase = .idle)
    (hp : s.pending = c :: rest) (hd : decode c.word = .ok i) : step s = exec i (s.accept c rest) := by
  simp [step_of_presented h hp, runPresented, hd]

theorem step_of_illegal {c : Command} {rest : List Command} {e : IllegalWord} (h : s.phase = .idle)
    (hp : s.pending = c :: rest) (hd : decode c.word = .error e) :
    step s = .next (takeIllegal (s.discardWord rest)) := by
  simp [step_of_presented h hp, runPresented, hd]

end

theorem resume_of_mem_waitPoints {cmd : Instr} {k : Nat} (h : k ∈ waitPoints cmd) (s : State) :
    ∃ f, waitingStage cmd k = some f ∧ resume cmd k s = .next (f s) := by
  obtain ⟨f, hf⟩ := Option.isSome_iff_exists.mp ((waitingStage_isSome_iff cmd k).mpr h)
  exact ⟨f, hf, by simp [resume, hf]⟩

theorem resume_of_notMem_waitPoints {cmd : Instr} {k : Nat} (h : k ∉ waitPoints cmd) (s : State) :
    resume cmd k s = .fault .phaseOutsideSequence := by
  have none : waitingStage cmd k = .none := by
    rwa [← Option.not_isSome_iff_eq_none, waitingStage_isSome_iff]
  simp [resume, none]

/-- The ways a step can reach a next state. -/
inductive StepsTo (s t : State) : Prop
  | resumed {cmd k} : s.phase = .busy cmd k → Runs cmd s t → StepsTo s t
  | nothing : s.phase = .idle → s.pending = [] → t = s → StepsTo s t
  | accepted {c rest i} : s.phase = .idle → s.pending = c :: rest → decode c.word = .ok i →
      Runs i (s.accept c rest) t → StepsTo s t
  | illegal {c rest e} : s.phase = .idle → s.pending = c :: rest → decode c.word = .error e →
      t = takeIllegal (s.discardWord rest) → StepsTo s t

theorem resume_runs {cmd : Instr} {k : Nat} {s t : State} (h : resume cmd k s = .next t) : Runs cmd s t := by
  by_cases hk : k ∈ waitPoints cmd
  · obtain ⟨f, hf, e⟩ := resume_of_mem_waitPoints hk s
    obtain rfl : f s = t := Host.Outcome.next.inj (e.symm.trans h)
    exact waitingStage_runs hf s
  · rw [resume_of_notMem_waitPoints hk] at h
    cases h

theorem step_stepsTo {s t : State} (h : step s = .next t) : StepsTo s t := by
  rcases hphase : s.phase with _ | ⟨cmd, k⟩
  · rcases hp : s.pending with _ | ⟨c, rest⟩
    · rw [step_of_nothing hphase hp] at h
      exact .nothing hphase hp (Host.Outcome.next.inj h).symm
    · rcases hd : decode c.word with e | i
      · rw [step_of_illegal hphase hp hd] at h
        exact .illegal hphase hp hd (Host.Outcome.next.inj h).symm
      · rw [step_of_decode hphase hp hd] at h
        exact .accepted hphase hp hd (exec_runs h)
  · rw [step_of_busy hphase] at h
    exact .resumed hphase (resume_runs h)

end Sys2Proof.Machine
end

/-! # What every step keeps: the phase, the trust bit, the command port (R21, R25, R33, R189, R226) -/

section
namespace Sys2Proof.Machine

/-- A step of a command ends at a waiting point, with SUCCESS, or with BUS_FAIL and MV = 0 (R21, R189). -/
theorem Runs.ends {cmd : Instr} {s t : State} (h : Runs cmd s t) :
    (∃ k ∈ waitPoints cmd, t.phase = .busy cmd k) ∨
      (t.phase = .idle ∧ (t.result = .success ∨ (t.mv = false ∧ ∃ c, t.result = .busFail c))) := by
  induction h with
  | wait _ _ hk => exact .inl ⟨_, hk, rfl⟩
  | effect | finish | publish => exact .inr ⟨rfl, .inl rfl⟩
  | callErr _ e | sendErr e | receiveErr e => exact .inr ⟨rfl, .inr ⟨rfl, e, rfl⟩⟩
  | write _ _ _ ih | answer _ _ _ ih | saveStop _ _ ih | emit _ _ _ _ _ ih | receiveOk _ _ _ ih => exact ih

theorem State.phaseInv_of_idle {s : State} (h : s.phase = .idle) : s.phaseInv := by simp [State.phaseInv, h]

theorem State.phaseInv_of_busy {s : State} {cmd : Instr} {k : Nat} (h : s.phase = .busy cmd k) :
    s.phaseInv ↔ k ∈ waitPoints cmd := by
  simp [State.phaseInv, h]

theorem Runs.phaseInv {cmd : Instr} {s t : State} (h : Runs cmd s t) : t.phaseInv := by
  rcases h.ends with ⟨k, hk, busy⟩ | ⟨idle, -⟩
  · exact (State.phaseInv_of_busy busy).mpr hk
  · exact State.phaseInv_of_idle idle

theorem Runs.trustInv {cmd : Instr} {s t : State} (h : Runs cmd s t) : t.trustInv := by
  intro idle c failed
  rcases h.ends with ⟨k, -, busy⟩ | ⟨-, success | ⟨mv, -⟩⟩
  · simp [busy] at idle
  · simp [success] at failed
  · exact mv

/-- From a legal phase a step answers a next state. -/
theorem step_isNext {s : State} (h : s.phaseInv) : ∃ t, step s = .next t := by
  rcases hphase : s.phase with _ | ⟨cmd, k⟩
  · rcases hp : s.pending with _ | ⟨c, rest⟩
    · exact ⟨s, step_of_nothing hphase hp⟩
    · rcases hd : decode c.word with e | i
      · exact ⟨_, step_of_illegal hphase hp hd⟩
      · obtain ⟨f, -, run⟩ := exec_sequence i
        exact ⟨_, (step_of_decode hphase hp hd).trans (run _)⟩
  · obtain ⟨f, -, run⟩ := resume_of_mem_waitPoints ((State.phaseInv_of_busy hphase).mp h) s
    exact ⟨_, (step_of_busy hphase).trans run⟩

/-- No command changes the sampled DT_IN or the commands presented after it (R21, R31). -/
theorem Runs.port {cmd : Instr} {s t : State} (h : Runs cmd s t) : t.dtIn = s.dtIn ∧ t.pending = s.pending := by
  induction h with
  | wait same => rw [same.1]; exact ⟨rfl, rfl⟩
  | effect => simp
  | answer same _ _ ih => rw [same.1] at ih; exact ih
  | finish | publish | callErr | sendErr | receiveErr => exact ⟨rfl, rfl⟩
  | write _ _ _ ih | saveStop _ _ ih | emit _ _ _ _ _ ih | receiveOk _ _ _ ih => exact ih

end Sys2Proof.Machine
end

section
open Sys2Proof Sys2Proof.Machine

/-- Settles O49: from a legal phase the step is defined, and however a command's step ends, it ends IDLE or at one of
its waiting points. -/
theorem stepKeepsPhaseLegalAndNeverStops : Obligations.StepKeepsPhaseLegalAndNeverStops := by
  intro s legal
  obtain ⟨t, ht⟩ := step_isNext legal
  refine ⟨t, ht, ?_⟩
  cases step_stepsTo ht with
  | resumed _ runs | accepted _ _ _ runs => exact runs.phaseInv
  | nothing _ _ e => exact e ▸ legal
  | illegal _ _ _ e => exact e ▸ State.phaseInv_of_idle rfl

/-- Settles O50: a command that ends with BUS_FAIL has cleared MV, and no other step leaves BUS_FAIL in RESULT with
the core idle unless it was so before. -/
theorem stepKeepsFailureUntrusted : Obligations.StepKeepsFailureUntrusted := by
  intro s t trusted ht
  cases step_stepsTo ht with
  | resumed _ runs | accepted _ _ _ runs => exact runs.trustInv
  | nothing _ _ e => exact e ▸ trusted
  | illegal _ _ _ e => simp [State.trustInv, e]

/-- Settles O8: no command touches the port, and an idle step takes the first presented word and no other. -/
theorem presentedCommandsAreHeldAndTakenInOrder : Obligations.PresentedCommandsAreHeldAndTakenInOrder := by
  intro s t ht
  cases step_stepsTo ht with
  | resumed busy runs => exact ⟨fun _ _ _ => runs.port.symm, fun idle => by simp [busy] at idle⟩
  | nothing idle none e => exact ⟨fun _ _ busy => by simp [idle] at busy, fun _ => .inl ⟨none, e ▸ none, e ▸ rfl⟩⟩
  | accepted idle first legal runs =>
    obtain ⟨dtIn, pending⟩ := runs.port
    exact ⟨fun _ _ busy => by simp [idle] at busy,
      fun _ => .inr ⟨_, by simp [first, pending], .inl ⟨⟨_, legal⟩, dtIn⟩⟩⟩
  | illegal idle first illegal e =>
    subst e
    exact ⟨fun _ _ busy => by simp [idle] at busy, fun _ => .inr ⟨_, first, .inr ⟨⟨_, illegal⟩, rfl⟩⟩⟩

/-- Settles O6: acceptance is the update of DT_IN and the port alone. -/
theorem stepRunsDecodedCommand : Obligations.StepRunsDecodedCommand :=
  fun _ _ _ _ idle first legal => step_of_decode idle first legal

/-- Settles O7: an idle step with nothing on the port is the identity. -/
theorem stepWithNothingPresentedChangesNothing : Obligations.StepWithNothingPresentedChangesNothing :=
  fun _ idle none => step_of_nothing idle none

/-- Settles O10: `resume` finds no stage outside the waiting points. -/
theorem phaseOutsideSequenceFaults : Obligations.PhaseOutsideSequenceFaults :=
  fun s _ _ busy outside => (step_of_busy busy).trans (resume_of_notMem_waitPoints outside s)

/-- Settles O12: each value is the one that the reset state is built with. -/
theorem resetLeavesTheSpecifiedValues : Obligations.ResetLeavesTheSpecifiedValues :=
  ⟨fun _ _ => ⟨rfl, rfl, rfl, rfl, rfl, rfl, rfl, rfl, rfl, rfl, rfl⟩, Mirror.zero, false, rfl⟩

/-- Settles O14: READY is the phase being IDLE, and it alone decides whether there is a sample. -/
theorem outputsAreSampledOnlyWhenReady : Obligations.OutputsAreSampledOnlyWhenReady := by
  refine fun s => ⟨fun idle => ?_, fun cmd k busy => ?_⟩
  · have ready : s.ready = true := by simp [State.ready, idle]
    exact ⟨ready, by simp [State.sample, ready], rfl, rfl, rfl, rfl, rfl⟩
  · have notReady : s.ready = false := by simp [State.ready, busy]
    exact ⟨notReady, by simp [State.sample, notReady]⟩

end

/-! # Effects and frames of the commands (R22, R23, R27 to R31, R36, R162 to R165, R191) -/

section
namespace Sys2Proof.Machine

/-- A command outside the sequencer as one record update. -/
theorem exec_local_eq {i : Instr} (h : isLocal i = true) (s : State) :
    exec i s = .next { localEffect i s with result := .success, phase := .idle } :=
  exec_of_isLocal h s

theorem Mirror.toList_set (m : Mirror) (a : BitVec 3) (v : Byte) : (m.set a v).toList = m.toList.set a.toNat v := by
  rcases a with ⟨⟨n, hn⟩⟩
  have : n = 0 ∨ n = 1 ∨ n = 2 ∨ n = 3 ∨ n = 4 ∨ n = 5 ∨ n = 6 ∨ n = 7 := by omega
  rcases this with rfl | rfl | rfl | rfl | rfl | rfl | rfl | rfl <;> rfl

/-- Each step of a command changes only mirror bytes that the command owns. -/
theorem Runs.writesOwnBytes {cmd : Instr} {s t : State} (h : Runs cmd s t) : WritesOwnBytes cmd s.mirror t.mirror := by
  induction h with
  | wait same => rw [same.1]; exact .refl _ _
  | effect => exact localEffect_writesOwnBytes _ _
  | write m own _ ih => exact own.trans ih
  | answer same _ _ ih => rw [same.1] at ih; exact ih
  | receiveOk _ all | receiveErr _ all => exact .of_all all _ _
  | finish | publish | callErr | sendErr => exact .refl _ _
  | saveStop _ _ ih | emit _ _ _ _ _ ih => exact ih

/-- CODEC_OUT and DATA_OUT are as the local effect leaves them: no transaction writes them (R27, R28). -/
theorem Runs.codecOut_dataOut {cmd : Instr} {s t : State} (h : Runs cmd s t) :
    ((∀ b, cmd ≠ .bcdDec b ∧ cmd ≠ .bcdEnc b) → t.codecOut = s.codecOut) ∧
      ((∀ a, cmd ≠ .mirRd a) → t.dataOut = s.dataOut) := by
  induction h with
  | wait same => rw [same.1]; exact ⟨fun _ => rfl, fun _ => rfl⟩
  | effect => exact ⟨localEffect_codecOut _ _, localEffect_dataOut _ _⟩
  | answer same _ _ ih => rw [same.1] at ih; exact ih
  | finish | publish | callErr | sendErr | receiveErr => exact ⟨fun _ => rfl, fun _ => rfl⟩
  | write _ _ _ ih | saveStop _ _ ih | emit _ _ _ _ _ ih | receiveOk _ _ _ ih => exact ih

/-- DT_OUT is written by DT_DECODE, and by READ_DT as it succeeds (R29, R183). -/
theorem Runs.dtOut {cmd : Instr} {s t : State} (h : Runs cmd s t) (hd : cmd ≠ .dtDecode)
    (hr : cmd = .readDt → t.phase ≠ .idle ∨ t.result ≠ .success) : t.dtOut = s.dtOut := by
  induction h with
  | wait same => rw [same.1]; rfl
  | effect => exact localEffect_dtOut _ _ hd
  | publish readDt => simpa [publishDatetime] using hr readDt
  | answer same _ _ ih => rw [same.1] at ih; exact ih hr
  | finish | callErr | sendErr | receiveErr => rfl
  | write _ _ _ ih | saveStop _ _ ih | emit _ _ _ _ _ ih | receiveOk _ _ _ ih => exact ih hr

end Sys2Proof.Machine
end

section
open Sys2Proof Sys2Proof.Machine

/-- Settles O18: entry `a` of the list in transfer order is `M[a]`. -/
theorem mirRdReadsTheIndexedByte : Obligations.MirRdReadsTheIndexedByte :=
  fun a s => ⟨s.mirror.get a, s.mirror.toList_get a, exec_local_eq rfl s⟩

/-- Settles O19: setting `M[a]` sets entry `a` of the list in transfer order. -/
theorem mirWrReplacesOnlyTheIndexedByte : Obligations.MirWrReplacesOnlyTheIndexedByte :=
  fun a v s => ⟨s.mirror.set a v, s.mirror.toList_set a v, exec_local_eq rfl s⟩

/-- Settles O28: a local command is its effect on the registers and `finish`, and the effect leaves these fields. -/
theorem localCommandsSucceedWithoutTransport : Obligations.LocalCommandsSucceedWithoutTransport :=
  fun i s h => ⟨_, exec_of_isLocal h s, rfl, rfl, by simp, by simp, by simp, by simp, by simp⟩

/-- Settles O29: each mirror update of a command is among its own bytes, and so is their composition. -/
theorem mirrorBytesOutsideTheWriteTableStay : Obligations.MirrorBytesOutsideTheWriteTableStay :=
  fun _ _ _ run => (exec_runs run).writesOwnBytes

/-- Settles O30: one frame of a command's run for each register. -/
theorem outputRegistersAreWrittenOnlyByTheirCommands : Obligations.OutputRegistersAreWrittenOnlyByTheirCommands := by
  intro i s t run
  have runs := exec_runs run
  obtain ⟨codec, data⟩ := runs.codecOut_dataOut
  exact ⟨codec, data, runs.dtOut, runs.port⟩

end

/-! # The control bits of M[7] (R36, R162 to R165) -/

section
namespace Sys2Proof.Machine

/-- Masking and setting bits leaves a bit that the mask keeps and that is not set. -/
theorem sameBit_and_or {x mask new : Byte} {p : Nat → Prop}
    (keep : ∀ j < 8, p j → mask.getLsbD j = true ∧ new.getLsbD j = false) {j : Nat} (hj : p j) :
    sameBit (x &&& mask ||| new) x j := by
  unfold sameBit
  by_cases h : j < 8
  · obtain ⟨kept, unset⟩ := keep j h hj
    simp only [BitVec.getLsbD_or, BitVec.getLsbD_and, kept, unset, Bool.and_true, Bool.or_false]
  · rw [BitVec.getLsbD_of_ge _ _ (by omega), BitVec.getLsbD_of_ge _ _ (by omega)]

theorem Mirror.rs_toNat (m : Mirror) : m.rs.toNat = m.ctl.toNat % 4 := by simp [Mirror.rs]

@[simp] theorem Mirror.setRate_rs (m : Mirror) (rate : BitVec 2) : (m.setRate rate).rs = rate := by
  ext j hj
  have : j = 0 ∨ j = 1 := by omega
  rcases this with rfl | rfl <;> simp [Mirror.rs, Mirror.setRate]

@[simp] theorem Mirror.setSqwe_sqwe (m : Mirror) (enable : Bool) : (m.setSqwe enable).sqwe = enable := by
  cases enable <;> simp [Mirror.sqwe, Mirror.setSqwe, boolImm]

@[simp] theorem Mirror.setOut_out (m : Mirror) (level : Bool) : (m.setOut level).out = level := by
  cases level <;> simp [Mirror.out, Mirror.setOut, boolImm]

theorem Mirror.setRate_sameBit (m : Mirror) (rate : BitVec 2) {j : Nat} (hj : 2 ≤ j) :
    sameBit (m.setRate rate).ctl m.ctl j :=
  sameBit_and_or (p := (2 ≤ ·)) (by revert rate; decide) hj

theorem Mirror.setSqwe_sameBit (m : Mirror) (enable : Bool) {j : Nat} (hj : j ≠ 4) :
    sameBit (m.setSqwe enable).ctl m.ctl j :=
  sameBit_and_or (p := (· ≠ 4)) (by revert enable; decide) hj

theorem Mirror.setOut_sameBit (m : Mirror) (level : Bool) {j : Nat} (hj : j ≠ 7) :
    sameBit (m.setOut level).ctl m.ctl j :=
  sameBit_and_or (p := (· ≠ 7)) (by revert level; decide) hj

end Sys2Proof.Machine
end

section
open Sys2Proof Sys2Proof.Machine

/-- Settles O27: each command sets its own field of M[7], and its mask keeps every other bit. -/
theorem controlBitCommandsChangeOnlyTheirBits : Obligations.ControlBitCommandsChangeOnlyTheirBits := by
  intro s r b
  have rate : (s.mirror.setRate r).ctl.toNat % 4 = r.toNat := by rw [← Mirror.rs_toNat, Mirror.setRate_rs]
  exact ⟨(s.mirror.setRate r).ctl, (s.mirror.setSqwe b).ctl, (s.mirror.setOut b).ctl,
    exec_local_eq rfl s, exec_local_eq rfl s, exec_local_eq rfl s, rate, fun _ => s.mirror.setRate_sameBit r,
    s.mirror.setSqwe_sqwe b, fun _ => s.mirror.setSqwe_sameBit b,
    s.mirror.setOut_out b, fun _ => s.mirror.setOut_sameBit b⟩

end

/-! # What a step adds to the trace (R25, R70, R189, R220, R224) -/

section
namespace Sys2Proof.Machine

theorem restoreStop_emit_trace (c : Call) (a : Answer) (s : State) :
    (restoreStop (s.emit c a)).env.trace = s.env.trace ++ [⟨c, a⟩, ⟨.setStop s.savedStop, .none⟩] := by
  simp

/-- From `s` to `t` the events `new` were added, MV rose only with a block received among them, and fell only with a
BUS_FAIL finish (R25). -/
def TrustFollows (s t : State) (new : List Event) : Prop :=
  t.env.trace = s.env.trace ++ new ∧
    (t.mv = true → s.mv = true ∨ ∃ b, (⟨.receive 8, .received b⟩ : Event) ∈ new) ∧
    (t.mv = false → s.mv = false ∨ (t.phase = .idle ∧ ∃ c, t.result = .busFail c))

/-- Steps that keep MV and the trace. -/
theorem TrustFollows.nil {s t : State} (tr : t.env.trace = s.env.trace) (mv : t.mv = s.mv) : TrustFollows s t [] :=
  ⟨by simp [tr], fun h => .inl (mv ▸ h), fun h => .inl (mv ▸ h)⟩

/-- A first part that leaves MV as it is, or sets it with a block received in that part. -/
theorem TrustFollows.prepend {s s₁ t : State} {first new : List Event} (h : TrustFollows s₁ t new)
    (tr : s₁.env.trace = s.env.trace ++ first)
    (mv : s₁.mv = s.mv ∨ (s₁.mv = true ∧ ∃ b, (⟨.receive 8, .received b⟩ : Event) ∈ first)) :
    TrustFollows s t (first ++ new) := by
  obtain ⟨trace, rise, fall⟩ := h
  refine ⟨by simp [trace, tr], fun ht => ?_, fun ht => ?_⟩
  · rcases rise ht with up | ⟨b, hb⟩
    · rcases mv with same | ⟨-, b, hb⟩
      · exact .inl (same ▸ up)
      · exact .inr ⟨b, List.mem_append_left _ hb⟩
    · exact .inr ⟨b, List.mem_append_right _ hb⟩
  · rcases fall ht with down | failed
    · rcases mv with same | ⟨up, -⟩
      · exact .inl (same ▸ down)
      · simp [up] at down
    · exact .inr failed

theorem TrustFollows.busFail {s s₁ : State} {new : List Event} (e : TransportCode)
    (tr : s₁.env.trace = s.env.trace ++ new) : TrustFollows s (busFail e s₁) new :=
  ⟨tr, nofun, fun _ => .inr ⟨rfl, e, rfl⟩⟩

theorem Runs.trustFollows {cmd : Instr} {s t : State} (h : Runs cmd s t) : ∃ new, TrustFollows s t new := by
  induction h with
  | wait same => exact ⟨[], .nil same.2 (by rw [same.1]; rfl)⟩
  | effect => exact ⟨[], .nil (by simp) (by simp)⟩
  | finish | publish => exact ⟨[], .nil rfl rfl⟩
  | callErr _ e => exact ⟨_, .busFail e rfl⟩
  | sendErr e | receiveErr e => exact ⟨_, .busFail e (restoreStop_emit_trace _ _ _)⟩
  | write _ _ _ ih | saveStop _ _ ih => exact ih
  | answer same _ _ ih =>
    obtain ⟨new, h⟩ := ih
    exact ⟨[] ++ new, h.prepend (by simp [same.2]) (.inl (by rw [same.1]))⟩
  | emit _ _ _ _ _ ih =>
    obtain ⟨new, h⟩ := ih
    exact ⟨_, h.prepend rfl (.inl rfl)⟩
  | receiveOk b _ _ ih =>
    obtain ⟨new, h⟩ := ih
    exact ⟨_, h.prepend (restoreStop_emit_trace _ _ _) (.inr ⟨rfl, b, List.mem_cons_self⟩)⟩

/-- A command that ended in `t` with the events `new` reports the first failure among them, and after that call only
restored the stop-condition flag (R189, R220). -/
def ReportsFirstFailure (t : State) (new : List Event) : Prop :=
  (t.result = .success ∧ ∀ e ∈ new, e.failure = none) ∨
    ∃ c before e after, new = before ++ e :: after ∧ (∀ x ∈ before, x.failure = none) ∧ e.failure = some c ∧
      onlyRestores after ∧ t.result = .busFail c ∧ t.mv = false

theorem ReportsFirstFailure.prepend {t : State} {first new : List Event} (h : ReportsFirstFailure t new)
    (good : ∀ e ∈ first, e.failure = none) : ReportsFirstFailure t (first ++ new) := by
  obtain ⟨success, all⟩ | ⟨c, before, e, after, rfl, none, rest⟩ := h
  · exact .inl ⟨success, fun e he => (List.mem_append.mp he).elim (good e) (all e)⟩
  · exact .inr ⟨c, first ++ before, e, after, by simp, fun x hx => (List.mem_append.mp hx).elim (good x) (none x), rest⟩

theorem ReportsFirstFailure.busFail {c : TransportCode} {s : State} {call : Call} {after : List Event}
    (h : onlyRestores after) : ReportsFirstFailure (busFail c s) (⟨call, .result (.err c)⟩ :: after) :=
  .inr ⟨c, [], _, after, rfl, nofun, rfl, h, rfl, rfl⟩

theorem onlyRestores_setStop (b : Bool) : onlyRestores [⟨.setStop b, .none⟩] :=
  fun _ he => ⟨b, List.mem_singleton.mp he⟩

/-- Answered without delay, a command ends in this step and reports its first failure. -/
theorem Runs.completes {cmd : Instr} {s t : State} (h : Runs cmd s t) (prompt : s.prompt = true) :
    t.phase = .idle ∧ ∃ new, t.env.trace = s.env.trace ++ new ∧ ReportsFirstFailure t new := by
  induction h with
  | wait _ delayed => simp [prompt] at delayed
  | effect | finish | publish => exact ⟨rfl, [], by simp [publishDatetime], .inl ⟨rfl, nofun⟩⟩
  | callErr => exact ⟨rfl, _, rfl, .busFail nofun⟩
  | sendErr | receiveErr => exact ⟨rfl, _, restoreStop_emit_trace _ _ _, .busFail (onlyRestores_setStop _)⟩
  | write _ _ _ ih | saveStop _ _ ih => exact ih prompt
  | answer same keep _ ih =>
    obtain ⟨idle, new, tr, reports⟩ := ih (keep prompt)
    exact ⟨idle, new, by rw [tr, same.2], reports⟩
  | emit c a _ good _ ih =>
    obtain ⟨idle, new, tr, reports⟩ := ih prompt
    exact ⟨idle, [⟨c, a⟩] ++ new, by simp [tr], reports.prepend (by simp [good])⟩
  | @receiveOk s _ b _ _ ih =>
    obtain ⟨idle, new, tr, reports⟩ := ih prompt
    exact ⟨idle, [⟨.receive 8, .received b⟩, ⟨.setStop s.savedStop, .none⟩] ++ new, by simp [tr],
      reports.prepend (by simp [Event.failure])⟩

end Sys2Proof.Machine
end

section
open Sys2Proof Sys2Proof.Machine

/-- Settles O32: of the steps of a command only a received block sets MV and only BUS_FAIL clears it; the other steps
leave MV and the trace. -/
theorem trustBitFollowsReadsAndFailures : Obligations.TrustBitFollowsReadsAndFailures := by
  intro s t ht
  cases step_stepsTo ht with
  | resumed _ runs => exact runs.trustFollows
  | accepted _ _ _ runs => exact runs.trustFollows
  | nothing _ _ e | illegal _ _ _ e =>
    subst e
    exact ⟨[], TrustFollows.nil rfl rfl⟩

/-- Settles O33: answered without delay a run cannot wait, and the call that fails is its last but for the restore. -/
theorem everyCommandCompletesAndReportsItsFirstFailure :
    Obligations.EveryCommandCompletesAndReportsItsFirstFailure := by
  intro i s prompt
  obtain ⟨f, seq, run⟩ := exec_sequence i
  obtain ⟨idle, new, tr, reports⟩ := (seq.runs s).completes prompt
  exact ⟨f s, new, run s, idle, tr, reports⟩

end

/-! # Unanswered calls (R21, R33, R70, R259, U10)

A waiting point whose call is not answered is waited at again, so the answers of a delayed run are used at the same
points of the sequence as those of a prompt run. -/

section
namespace Sys2Proof.Machine

/-! ## A call that is not answered -/

section
variable {cmd : Instr} {k : Nat} {next : State → State} {s : State} {later : List (Option CallResult)}

theorem resultCall_of_delay {c : Call} {onErr : TransportCode → State → State} (hr : s.env.replies = none :: later) :
    resultCall cmd k c onErr next s = { s with env := { s.env with replies := later } }.waitAt cmd k := by
  simp [resultCall, State.nextReply, hr]

theorem receiveStage_of_delay (hr : s.env.replies = none :: later) :
    receiveStage cmd k next s = { s with env := { s.env with replies := later } }.waitAt cmd k := by
  simp [receiveStage, State.nextReply, hr]

theorem waitingStage_of_delay {f : State → State} (h : waitingStage cmd k = some f)
    (hr : s.env.replies = none :: later) : f s = { s with env := { s.env with replies := later } }.waitAt cmd k := by
  cases waitingStage_form h with
  | call call _ =>
    obtain ⟨c, -⟩ := call
    exact resultCall_of_delay hr
  | sendPointer => exact resultCall_of_delay hr
  | receive => exact receiveStage_of_delay hr

end

/-! ## The same answers at once -/

/-- `s` without delays, in any phase: the phase is not read between a command's start and its end. -/
def State.atOnce (p : Phase) (s : State) : State := { s.withoutDelays with phase := p }

section
variable (s : State) (p : Phase)

theorem State.nextReply_atOnce (h : ∀ later, s.env.replies ≠ none :: later) :
    ∃ r s₁, s.nextReply = (some r, s₁) ∧ (s.atOnce p).nextReply = (some r, s₁.atOnce p) := by
  rcases hr : s.env.replies with _ | ⟨_ | r, later⟩
  · refine ⟨Config.reply s.env.draws, s.nextReply.2, ?_, ?_⟩ <;> simp [nextReply, atOnce, withoutDelays, hr]
  · exact absurd hr (h later)
  · refine ⟨r, s.nextReply.2, ?_, ?_⟩ <;> simp [nextReply, atOnce, withoutDelays, hr]

theorem State.nextStopFlag_atOnce :
    (s.atOnce p).nextStopFlag = (s.nextStopFlag.1, s.nextStopFlag.2.atOnce p) := by
  cases h : s.env.stopFlags <;> simp [nextStopFlag, atOnce, withoutDelays, h]

theorem State.nextBlock_atOnce : (s.atOnce p).nextBlock = (s.nextBlock.1, s.nextBlock.2.atOnce p) := by
  cases h : s.env.blocks <;> simp [nextBlock, atOnce, withoutDelays, h]

end

/-- From `s` a command that has `f` left to do comes to its end, in the state that `f` reaches without the delays. -/
def Settles (f : State → State) (s : State) : Prop :=
  ∀ p, ∃ n t, core.run n (f s) = .next t ∧ t.phase = .idle ∧ t.withoutDelays = f (s.atOnce p)

theorem core_run_succ {s t : State} (h : step s = .next t) (n : Nat) : core.run (n + 1) s = core.run n t := by
  have next : core.step s = .next t := h
  simp only [Host.Core.run, next]

/-- A command that has ended has settled. -/
theorem settles_of_idle {f : State → State} {s : State} (idle : (f s).phase = .idle)
    (same : ∀ p, (f s).withoutDelays = f (s.atOnce p)) : Settles f s :=
  fun p => ⟨0, f s, rfl, idle, same p⟩

section
variable {cmd : Instr} {k : Nat} {next : State → State}

/-- Waiting uses up the delays in front of the next answer, so it is enough to settle with an answer at hand. -/
theorem settles_of_waitingStage {f : State → State} (stage : waitingStage cmd k = some f)
    (answered : ∀ s, (∀ later, s.env.replies ≠ none :: later) → Settles f s) (s : State) : Settles f s := by
  induction hr : s.env.replies generalizing s with
  | nil => exact answered s (by simp [hr])
  | cons r later ih =>
    cases r with
    | some r => exact answered s (by simp [hr])
    | none =>
      intro p
      let s₁ := { s with env := { s.env with replies := later } }.waitAt cmd k
      obtain ⟨n, t, run, idle, same⟩ := ih s₁ rfl p
      have resumes : step s₁ = .next (f s₁) := (step_of_busy rfl).trans (by rw [resume, stage])
      refine ⟨n + 1, t, ?_, idle, ?_⟩
      · rw [waitingStage_of_delay stage hr, core_run_succ resumes, run]
      · rw [same]
        simp [s₁, State.atOnce, State.withoutDelays, State.waitAt, hr]

theorem resultCall_settles {c : Mirror → Call} {onErr : TransportCode → State → State}
    (stage : waitingStage cmd k = some fun s => resultCall cmd k (c s.mirror) onErr next s)
    (err : ∀ e s, Settles (onErr e) s) (ok : ∀ s, Settles next s) (s : State) :
    Settles (fun s => resultCall cmd k (c s.mirror) onErr next s) s := by
  refine settles_of_waitingStage stage (fun s h p => ?_) s
  obtain ⟨r, s₁, now, atOnce⟩ := s.nextReply_atOnce p h
  have mirror : (s.atOnce p).mirror = s.mirror := rfl
  simp only [resultCall, now, atOnce, mirror]
  cases r with
  | ok => exact ok (s₁.emit _ _) p
  | err e => exact err e (s₁.emit _ _) p

theorem busFail_settles (e : TransportCode) (s : State) : Settles (busFail e) s :=
  settles_of_idle rfl fun _ => rfl

theorem receiveStage_settles (stage : waitingStage cmd k = some (receiveStage cmd k next)) (ok : ∀ s, Settles next s)
    (s : State) : Settles (receiveStage cmd k next) s := by
  refine settles_of_waitingStage stage (fun s h p => ?_) s
  obtain ⟨r, s₁, now, atOnce⟩ := s.nextReply_atOnce p h
  simp only [receiveStage, now, atOnce]
  cases r with
  | ok =>
    simp only [State.nextBlock_atOnce]
    exact ok { restoreStop (s₁.nextBlock.2.emit _ _) with mirror := _, mv := true } p
  | err e => exact busFail_settles e (restoreStop (s₁.emit _ _)).scrambleMirror p

theorem blockRead_settles (send : waitingStage cmd (k + 2) = some (sendPointerStage cmd (k + 2) next))
    (receive : waitingStage cmd (k + 3) = some (receiveStage cmd (k + 3) next)) (ok : ∀ s, Settles next s)
    (s : State) : Settles (blockRead cmd k next) s := by
  intro p
  have rest := resultCall_settles (c := fun _ => .send [secondsAddress]) send
    (fun e s => settles_of_idle rfl fun _ => rfl) (receiveStage_settles receive ok)
  simp only [blockRead, State.nextStopFlag_atOnce]
  exact rest (({ s.nextStopFlag.2 with savedStop := s.nextStopFlag.1 }.emit _ _).emit _ _) p

end

theorem Sequence.settles {cmd : Instr} {f : State → State} (h : Sequence cmd f) (s : State) : Settles f s := by
  induction h generalizing s with
  | effect => exact settles_of_idle rfl fun p => by cases cmd <;> simp only [localEffect] <;> rfl
  | finish | publish => exact settles_of_idle rfl fun _ => rfl
  | write g _ _ ih => exact ih { s with mirror := g s.mirror s.dtIn }
  | branch c _ _ ihf ihg =>
    intro p
    have mirror : (s.atOnce p).mirror = s.mirror := rfl
    beta_reduce
    rw [mirror]
    split
    · exact ihf s p
    · exact ihg s p
  | call call _ stage ih =>
    obtain ⟨c, -⟩ := call
    exact resultCall_settles stage busFail_settles ih s
  | blockRead _ _ send receive ih => exact blockRead_settles send receive ih s

end Sys2Proof.Machine
end

section
open Sys2Proof Sys2Proof.Machine

/-- Settles O9: the stage of a waiting point begins with its call, and an unanswered call waits where it waited. -/
theorem unansweredCallKeepsCommandWaiting : Obligations.UnansweredCallKeepsCommandWaiting := by
  intro s cmd k later busy legal hr
  obtain ⟨f, stage, run⟩ := resume_of_mem_waitPoints legal s
  rw [step_of_busy busy, run, waitingStage_of_delay stage hr, State.waitAt, ← busy]

/-- Settles O11: every form of a command's sequence settles, by induction over the forms and, at each call, over the
delays before its answer. -/
theorem delayedAnswersDoNotChangeTheOutcome : Obligations.DelayedAnswersDoNotChangeTheOutcome := by
  intro i s u hu
  obtain ⟨f, seq, run⟩ := exec_sequence i
  obtain rfl : f s.withoutDelays = u := Host.Outcome.next.inj ((run _).symm.trans hu)
  obtain ⟨n, t, runs, idle, same⟩ := seq.settles s s.phase
  exact ⟨f s, t, n, run s, runs, idle, same⟩

end

/-! # MV and SAVED_STOP are not read (R25, R32) -/

section
namespace Sys2Proof.Machine

/-! ## The environment's answers depend on the environment alone -/

section
variable {s s' : State} (h : s'.env = s.env)
include h

theorem State.nextReply_congr :
    s'.nextReply.1 = s.nextReply.1 ∧ s'.nextReply.2.env = s.nextReply.2.env := by
  unfold State.nextReply
  rw [h]
  split <;> exact ⟨rfl, rfl⟩

theorem State.nextStopFlag_congr :
    s'.nextStopFlag.1 = s.nextStopFlag.1 ∧ s'.nextStopFlag.2.env = s.nextStopFlag.2.env := by
  unfold State.nextStopFlag
  rw [h]
  split <;> exact ⟨rfl, rfl⟩

theorem State.nextBlock_congr :
    s'.nextBlock.1 = s.nextBlock.1 ∧ s'.nextBlock.2.env = s.nextBlock.2.env := by
  unfold State.nextBlock
  rw [h]
  split <;> exact ⟨rfl, rfl⟩

end

/-! ## States that differ by the flags -/

/-- `s'` is `s` but for MV, where `mvFree`, and for SAVED_STOP, where `stopFree`. -/
def SameButFlags (mvFree stopFree : Prop) (s s' : State) : Prop :=
  ∃ v b, (v = s.mv ∨ mvFree) ∧ (b = s.savedStop ∨ stopFree) ∧ s' = { s with mv := v, savedStop := b }

/-- Run from states that differ by these flags alone, `f` ends in states that do. -/
def IgnoresFlags (mvFree stopFree : Prop) (f : State → State) : Prop :=
  ∀ s s', SameButFlags mvFree stopFree s s' → SameButFlags mvFree stopFree (f s) (f s')

section
variable {mvFree stopFree : Prop} {s s' : State}

theorem SameButFlags.weaken (h : SameButFlags mvFree False s s') : SameButFlags mvFree stopFree s s' := by
  obtain ⟨v, b, hv, hb, e⟩ := h
  exact ⟨v, b, hv, hb.imp_right False.elim, e⟩

/-- An operation that neither reads nor writes the flags. -/
theorem SameButFlags.map (h : SameButFlags mvFree stopFree s s') (g : State → State) (mv : (g s).mv = s.mv)
    (stop : (g s).savedStop = s.savedStop)
    (comm : ∀ v b, g { s with mv := v, savedStop := b } = { g s with mv := v, savedStop := b }) :
    SameButFlags mvFree stopFree (g s) (g s') := by
  obtain ⟨v, b, hv, hb, rfl⟩ := h
  exact ⟨v, b, mv ▸ hv, stop ▸ hb, comm v b⟩

theorem SameButFlags.emit (h : SameButFlags mvFree stopFree s s') (c : Call) (a : Answer) :
    SameButFlags mvFree stopFree (s.emit c a) (s'.emit c a) :=
  h.map (·.emit c a) rfl rfl fun _ _ => rfl

theorem SameButFlags.waitAt (h : SameButFlags mvFree stopFree s s') (cmd : Instr) (k : Nat) :
    SameButFlags mvFree stopFree (s.waitAt cmd k) (s'.waitAt cmd k) :=
  h.map (·.waitAt cmd k) rfl rfl fun _ _ => rfl

theorem SameButFlags.finish (h : SameButFlags mvFree stopFree s s') (r : Result) :
    SameButFlags mvFree stopFree (finish r s) (finish r s') :=
  h.map (Machine.finish r) rfl rfl fun _ _ => rfl

theorem SameButFlags.scrambleMirror (h : SameButFlags mvFree stopFree s s') :
    SameButFlags mvFree stopFree s.scrambleMirror s'.scrambleMirror :=
  h.map State.scrambleMirror rfl rfl fun _ _ => rfl

theorem SameButFlags.localEffect (h : SameButFlags mvFree stopFree s s') (i : Instr) :
    SameButFlags mvFree stopFree (localEffect i s) (localEffect i s') :=
  h.map (Machine.localEffect i) (localEffect_mv i s) (localEffect_savedStop i s) fun _ _ => by
    cases i <;> simp only [Machine.localEffect]

theorem SameButFlags.busFail (h : SameButFlags mvFree stopFree s s') (e : TransportCode) :
    SameButFlags mvFree stopFree (busFail e s) (busFail e s') := by
  obtain ⟨v, b, -, hb, rfl⟩ := h
  exact ⟨false, b, .inl rfl, hb, rfl⟩

/-- A received block sets MV whatever it was (R180). -/
theorem SameButFlags.fill (h : SameButFlags mvFree stopFree s s') (m : Mirror) :
    SameButFlags mvFree stopFree { s with mirror := m, mv := true } { s' with mirror := m, mv := true } := by
  obtain ⟨v, b, -, hb, rfl⟩ := h
  exact ⟨true, b, .inl rfl, hb, rfl⟩

/-- After T.getStop both states hold its answer (R180). -/
theorem SameButFlags.saveStop (h : SameButFlags mvFree stopFree s s') (f : Bool) :
    SameButFlags mvFree False { s with savedStop := f } { s' with savedStop := f } := by
  obtain ⟨v, b, hv, -, rfl⟩ := h
  exact ⟨v, f, hv, .inl rfl, rfl⟩

/-- The restore reads SAVED_STOP, so it must be the same in both states. -/
theorem SameButFlags.restoreStop (h : SameButFlags mvFree False s s') :
    SameButFlags mvFree False (restoreStop s) (restoreStop s') := by
  obtain ⟨v, b, hv, rfl | impossible, rfl⟩ := h
  · exact ⟨v, s.savedStop, hv, .inl rfl, rfl⟩
  · exact impossible.elim

theorem SameButFlags.mirror (h : SameButFlags mvFree stopFree s s') : s'.mirror = s.mirror := by
  obtain ⟨v, b, -, -, rfl⟩ := h
  rfl

theorem SameButFlags.env (h : SameButFlags mvFree stopFree s s') : s'.env = s.env := by
  obtain ⟨v, b, -, -, rfl⟩ := h
  rfl

theorem SameButFlags.of_sameButAnswers {s₁ s₁' : State} (h : SameButFlags mvFree stopFree s s')
    (same : SameButAnswers s s₁) (same' : SameButAnswers s' s₁') (env : s₁'.env = s₁.env) :
    SameButFlags mvFree stopFree s₁ s₁' := by
  rw [same.1, same'.1, env]
  exact h.map (fun s => { s with env := s₁.env }) rfl rfl fun _ _ => rfl

theorem SameButFlags.nextReply (h : SameButFlags mvFree stopFree s s') :
    ∃ a s₁ s₁', s.nextReply = (a, s₁) ∧ s'.nextReply = (a, s₁') ∧ SameButFlags mvFree stopFree s₁ s₁' := by
  obtain ⟨reply, env⟩ := State.nextReply_congr h.env
  exact ⟨s.nextReply.1, s.nextReply.2, s'.nextReply.2, rfl, Prod.ext reply rfl,
    h.of_sameButAnswers s.nextReply_same s'.nextReply_same env⟩

theorem SameButFlags.nextStopFlag (h : SameButFlags mvFree stopFree s s') :
    ∃ a s₁ s₁', s.nextStopFlag = (a, s₁) ∧ s'.nextStopFlag = (a, s₁') ∧ SameButFlags mvFree stopFree s₁ s₁' := by
  obtain ⟨flag, env⟩ := State.nextStopFlag_congr h.env
  exact ⟨s.nextStopFlag.1, s.nextStopFlag.2, s'.nextStopFlag.2, rfl, Prod.ext flag rfl,
    h.of_sameButAnswers s.nextStopFlag_same s'.nextStopFlag_same env⟩

theorem SameButFlags.nextBlock (h : SameButFlags mvFree stopFree s s') :
    ∃ a s₁ s₁', s.nextBlock = (a, s₁) ∧ s'.nextBlock = (a, s₁') ∧ SameButFlags mvFree stopFree s₁ s₁' := by
  obtain ⟨block, env⟩ := State.nextBlock_congr h.env
  exact ⟨s.nextBlock.1, s.nextBlock.2, s'.nextBlock.2, rfl, Prod.ext block rfl,
    h.of_sameButAnswers s.nextBlock_same s'.nextBlock_same env⟩

end

/-! ## The forms of a command -/

section
variable {mvFree stopFree : Prop} {cmd : Instr} {k : Nat} {next : State → State}

theorem resultCall_ignoresFlags {c : Call} {onErr : TransportCode → State → State}
    (err : ∀ e, IgnoresFlags mvFree stopFree (onErr e)) (ok : IgnoresFlags mvFree stopFree next) :
    IgnoresFlags mvFree stopFree (resultCall cmd k c onErr next) := by
  intro s s' h
  obtain ⟨r, s₁, s₁', hs, hs', rest⟩ := h.nextReply
  simp only [resultCall, hs, hs']
  rcases r with _ | _ | e
  · exact rest.waitAt cmd k
  · exact ok _ _ (rest.emit _ _)
  · exact err e _ _ (rest.emit _ _)

theorem receiveStage_ignoresFlags (ok : IgnoresFlags mvFree False next) :
    IgnoresFlags mvFree False (receiveStage cmd k next) := by
  intro s s' h
  obtain ⟨r, s₁, s₁', hs, hs', rest⟩ := h.nextReply
  simp only [receiveStage, hs, hs']
  rcases r with _ | _ | e
  · exact rest.waitAt cmd k
  · obtain ⟨b, s₂, s₂', hb, hb', rest⟩ := rest.nextBlock
    simp only [hb, hb']
    exact ok _ _ ((rest.emit _ _).restoreStop.fill _)
  · exact (rest.emit _ _).restoreStop.scrambleMirror.busFail e

/-- A block read writes SAVED_STOP before it reads it (R32). -/
theorem blockRead_ignoresFlags (ok : IgnoresFlags mvFree False next) :
    IgnoresFlags mvFree stopFree (blockRead cmd k next) := by
  intro s s' h
  obtain ⟨f, s₁, s₁', hs, hs', rest⟩ := h.nextStopFlag
  have send : IgnoresFlags mvFree False (sendPointerStage cmd (k + 2) next) :=
    resultCall_ignoresFlags (fun e _ _ h => h.restoreStop.busFail e) (receiveStage_ignoresFlags ok)
  simp only [blockRead, hs, hs']
  exact (send _ _ (((rest.saveStop f).emit _ _).emit _ _)).weaken

end

theorem Sequence.ignoresFlags {cmd : Instr} {f : State → State} (h : Sequence cmd f) (mvFree stopFree : Prop) :
    IgnoresFlags mvFree stopFree f := by
  induction h generalizing stopFree with
  | effect => exact fun _ _ h => (h.localEffect cmd).finish .success
  | finish => exact fun _ _ h => h.finish .success
  | publish => exact fun _ _ h => h.map publishDatetime rfl rfl fun _ _ => rfl
  | write g _ _ ih =>
    exact fun _ _ h => ih stopFree _ _
      (h.map (fun s => { s with mirror := g s.mirror s.dtIn }) rfl rfl fun _ _ => rfl)
  | branch c _ _ ihf ihg =>
    intro s s' h
    beta_reduce
    rw [h.mirror]
    split
    · exact ihf stopFree s s' h
    · exact ihg stopFree s s' h
  | call call _ _ ih =>
    obtain ⟨c, -⟩ := call
    intro s s' h
    beta_reduce
    rw [h.mirror]
    exact resultCall_ignoresFlags (fun e _ _ h => h.busFail e) (ih stopFree) s s' h
  | blockRead _ _ _ _ ih => exact blockRead_ignoresFlags (ih False)

end Sys2Proof.Machine
end

section
open Sys2Proof Sys2Proof.Machine

/-- Settles O31: MV is only ever written, and SAVED_STOP is read only by the restore of a block read, which wrote it. -/
theorem noCommandReadsTrustBitOrOldSavedStop : Obligations.NoCommandReadsTrustBitOrOldSavedStop := by
  intro i s t v ht
  obtain ⟨f, seq, run⟩ := exec_sequence i
  obtain rfl : f s = t := Host.Outcome.next.inj ((run s).symm.trans ht)
  refine ⟨⟨_, run _, ?_⟩, ⟨_, run _, ?_⟩⟩
  · obtain ⟨w, b, -, rfl | impossible, e⟩ := seq.ignoresFlags True False s { s with mv := v }
      ⟨v, s.savedStop, .inr trivial, .inl rfl, rfl⟩
    · rw [e]
    · exact impossible.elim
  · obtain ⟨w, b, rfl | impossible, -, e⟩ := seq.ignoresFlags False True s { s with savedStop := v }
      ⟨s.mv, v, .inl rfl, .inr trivial, rfl⟩
    · rw [e]
    · exact impossible.elim

end

/-! # The transfers of a step (R58, R60, R62 to R68) -/

section
namespace Sys2Proof.Machine

theorem State.transferInv.append {s t : State} {new : List Event} (h : s.transferInv)
    (tr : t.env.trace = s.env.trace ++ new) (allowed : ∀ e ∈ new, e.call.allowed = true) : t.transferInv := by
  intro e he
  rw [tr] at he
  exact (List.mem_append.mp he).elim (h e) (allowed e)

/-- A step that leaves the trace. -/
theorem State.transferInv.of_trace_eq {s t : State} (h : s.transferInv) (tr : t.env.trace = s.env.trace) :
    t.transferInv :=
  h.append (new := []) (by simp [tr]) nofun

theorem State.transferInv.emit {s : State} {c : Call} (h : s.transferInv) (hc : c.allowed = true) (a : Answer) :
    (s.emit c a).transferInv :=
  h.append rfl (by simpa using hc)

/-- The restore after a call of a block read (R180). -/
theorem State.transferInv.restoreStop {s : State} (h : s.transferInv) : (restoreStop s).transferInv :=
  h.emit rfl .none

theorem Runs.transferInv {cmd : Instr} {s t : State} (h : Runs cmd s t) (inv : s.transferInv) : t.transferInv := by
  induction h with
  | wait same => exact inv.of_trace_eq same.2
  | effect => exact inv.of_trace_eq (by simp)
  | finish | publish => exact inv.of_trace_eq rfl
  | write _ _ _ ih | saveStop _ _ ih => exact ih inv
  | answer same _ _ ih => exact ih (inv.of_trace_eq same.2)
  | emit _ a allowed _ _ ih => exact ih (inv.emit allowed a)
  | callErr _ e allowed => exact inv.emit allowed (.result (.err e))
  | sendErr e => exact (inv.emit rfl (.result (.err e))).restoreStop
  | receiveOk b _ _ ih => exact ih (inv.emit rfl (.received b)).restoreStop
  | receiveErr e => exact (inv.emit rfl (.result (.err e))).restoreStop

end Sys2Proof.Machine
end

section
open Sys2Proof Sys2Proof.Machine

/-- Settles O51: every call on the way of a command's run is an allowed one, and a step that runs no command makes
none. -/
theorem stepMakesOnlyTheListedTransfers : Obligations.StepMakesOnlyTheListedTransfers := by
  intro s t inv ht
  cases step_stepsTo ht with
  | resumed _ runs => exact runs.transferInv inv
  | accepted _ _ _ runs => exact runs.transferInv inv
  | nothing _ _ e => exact e ▸ inv
  | illegal _ _ _ e => exact inv.of_trace_eq (by simp [e])

end

/-! # The transactions in a prompt environment (R180 to R188) -/

section
namespace Sys2Proof.Machine

/-! ## A command's last call -/

/-- A command that stood at `s` has ended in `t` by the one call `c`, answered `r`: MV is kept on OK and cleared on ERR,
and no register but RESULT and PHASE differs otherwise (R11, R189). -/
def EndedByCall (c : Call) (r : CallResult) (s t : State) : Prop :=
  t.env.trace = s.env.trace ++ [⟨c, .result r⟩] ∧
    t = { s with mv := s.mv && decide (r = .ok), result := resultOf r, phase := .idle, env := t.env }

theorem resultCall_endedByCall (cmd : Instr) (k : Nat) (c : Call) {s : State} (hs : s.prompt = true) :
    ∃ r, EndedByCall c r s (resultCall cmd k c busFail (finish .success) s) := by
  obtain ⟨r, _, rfl, ended⟩ := lastCall_prompt cmd k c s hs
  exact ⟨r, ended⟩

theorem windowBeginStage_endedByCall {s : State} (hs : s.prompt = true) :
    ∃ r, EndedByCall (.windowBegin 0x3F 56 0x08) r s (windowBeginStage s) :=
  resultCall_endedByCall .init 1 _ hs

theorem blockWriteStage_endedByCall (cmd : Instr) (k : Nat) {s : State} (hs : s.prompt = true) :
    ∃ r, EndedByCall (.sendPrefixed s.mirror.toList [0x00] true) r s (blockWriteStage cmd k s) :=
  resultCall_endedByCall cmd k _ hs

theorem secondsWriteStage_endedByCall (cmd : Instr) (k : Nat) {s : State} (hs : s.prompt = true) :
    ∃ r, EndedByCall (.sendPrefixed [s.mirror.sec] [0x00] true) r s (secondsWriteStage cmd k s) :=
  resultCall_endedByCall cmd k _ hs

/-! ## The encoded block with CH clear -/

/-- An encoded second has CH clear (R142). -/
theorem encodeBcd_second_and_7F (dt : Datetime) :
    encodeBcd (BitVec.ofNat 8 (dt.second.toNat % 60)) &&& 0x7F = encodeBcd (BitVec.ofNat 8 (dt.second.toNat % 60)) := by
  have clear : ∀ v : Byte, v.toNat ≤ 59 → encodeBcd v &&& 0x7F = encodeBcd v := by decide
  exact clear _ (by rw [BitVec.toNat_ofNat]; omega)

/-- Clearing CH before or after encodeDT is the same (R142, R185). -/
theorem encodeDT_clearCh (m : Mirror) (dt : Datetime) : encodeDT m.clearCh dt = (encodeDT m dt).clearCh := by
  have bits : ∀ x y : Byte, y &&& 0x7F = y → (x &&& 0x7F) &&& 0x80 ||| y = ((x &&& 0x80) ||| y) &&& 0x7F := by
    intro x y hy
    rw [BitVec.and_or_distrib_right, hy, BitVec.and_assoc, BitVec.and_assoc]
    rfl
  simp only [encodeDT, Mirror.clearCh, bits _ _ (encodeBcd_second_and_7F dt)]

/-! ## The seconds write after a block read -/

/-- A block read that goes on to rewrite the seconds byte (R186, R187). -/
theorem blockRead_secondsWrite_prompt (cmd : Instr) (k j : Nat) (newSec : Byte → Byte) {s : State}
    (hs : s.prompt = true) {next : State → State}
    (hnext : ∀ s, next s =
      secondsWriteStage cmd j { s with mirror := { s.mirror with sec := newSec s.mirror.sec } }) :
    BlockReadFailed s (blockRead cmd k next s) [] ∨ SecondsRewritten s (blockRead cmd k next s) [] newSec := by
  rcases blockRead_prompt cmd k next s hs with failed | ⟨f, b, s₁, run, hs₁, tr₁, e₁⟩
  · exact .inl failed
  · obtain ⟨r, tr, e⟩ := secondsWriteStage_endedByCall cmd j
      (s := { s₁ with mirror := { s₁.mirror with sec := newSec s₁.mirror.sec } }) hs₁
    rw [← hnext, ← run] at tr e
    have block : s₁.mirror = .ofBlock b := by rw [e₁]
    refine .inr ⟨f, b, r, ?_, ?_⟩
    · simp [tr, tr₁, block, Mirror.ofBlock, writeEvent]
    · rw [e, e₁]
      simp [Mirror.ofBlock]

/-! ## START_SQW -/

/-- A call goes on alike where what follows it agrees on every state with the mirror of `s`. -/
theorem resultCall_congr_next {cmd : Instr} {k : Nat} {c : Call} {onErr : TransportCode → State → State}
    {next next' : State → State} {s : State} (h : ∀ t : State, t.mirror = s.mirror → next t = next' t) :
    resultCall cmd k c onErr next s = resultCall cmd k c onErr next' s := by
  have same := s.nextReply_same
  rcases hr : s.nextReply with ⟨_ | _ | e, s₁⟩ <;> simp only [resultCall, hr]
  simp only [hr] at same
  exact h _ (by rw [same.1]; rfl)

theorem startIfHalted_of_running (rate : BitVec 2) {s : State} (h : s.mirror.ch = false) :
    startIfHalted rate s = finish .success s := by
  simp [startIfHalted, h]

/-- With the clock running the control write is the command's last call (R188). -/
theorem controlWriteStage_endedByCall (rate : BitVec 2) {s : State} (hs : s.prompt = true)
    (hch : s.mirror.ch = false) :
    ∃ r, EndedByCall (.sendPrefixed [s.mirror.ctl] [0x07] true) r s (controlWriteStage rate s) := by
  have last : controlWriteStage rate s =
      registerWrite (.startSqw rate) 0 [s.mirror.ctl] controlAddress (finish .success) s :=
    resultCall_congr_next fun t ht => startIfHalted_of_running rate (ht ▸ hch)
  rw [last]
  exact resultCall_endedByCall (.startSqw rate) 0 _ hs

/-- With SQWE clear or another rate START_SQW makes the control write, of the byte with the new settings (R188). -/
theorem startSquareWave_of_differs {rate : BitVec 2} {s : State} (h : s.mirror.sqwe = false ∨ s.mirror.rs ≠ rate) :
    startSquareWave rate s = controlWriteStage rate { s with mirror := s.mirror.setSquareWave rate } := by
  rcases h with h | h <;> simp [startSquareWave, h]

theorem Mirror.setSquareWave_sameBit (m : Mirror) (rate : BitVec 2) {j : Nat} (hj : 2 ≤ j) (h4 : j ≠ 4) :
    sameBit (m.setSquareWave rate).ctl m.ctl j := by
  have rs : sameBit (m.setSquareWave rate).ctl (m.ctl ||| 0x10) j :=
    sameBit_and_or (p := (2 ≤ ·)) (by revert rate; decide) hj
  have sqwe : sameBit (m.ctl &&& BitVec.allOnes 8 ||| 0x10) m.ctl j :=
    sameBit_and_or (p := (· ≠ 4)) (by decide) h4
  rw [BitVec.and_allOnes] at sqwe
  exact rs.trans sqwe

end Sys2Proof.Machine
end

section
open Sys2Proof Sys2Proof.Machine

/-- Settles O34: after setAddr is answered OK, windowBegin is the last call. -/
theorem initSetsAddressThenWindow : Obligations.InitSetsAddressThenWindow := by
  intro s hs
  obtain ⟨s₁, ⟨e₁, tr₁⟩, ⟨delayed, -⟩ | ⟨keep, ok | ⟨c, failed⟩⟩⟩ :=
    resultCall_cases .init 0 (.setAddr 0x68) busFail windowBeginStage s
  · simp [hs] at delayed
  · obtain ⟨r, tr, e⟩ :=
      windowBeginStage_endedByCall (s := s₁.emit (.setAddr 0x68) (.result .ok)) (keep hs)
    refine ⟨_, congrArg Host.Outcome.next ok, .inr ⟨r, ?_, ?_⟩⟩
    · rw [tr]
      simp [tr₁]
    · rw [e, e₁]
      rfl
  · refine ⟨_, congrArg Host.Outcome.next failed, .inl ⟨c, ?_, ?_⟩⟩
    · simp [tr₁]
    · rw [e₁]
      rfl

/-- Settles O35: READ_ALL is the block read and `finish`. -/
theorem readAllRefillsTheMirror : Obligations.ReadAllRefillsTheMirror := by
  intro s hs
  refine ⟨blockRead .readAll 0 (finish .success) s, rfl, ?_⟩
  rcases blockRead_prompt .readAll 0 (finish .success) s hs with failed | ⟨f, b, s₁, run, -, tr, e⟩
  · exact .inl failed
  · refine .inr ⟨f, b, ?_, ?_⟩ <;> rw [run]
    · exact tr
    · rw [e]
      rfl

/-- Settles O37: the block write is the command's one call, after the mirror is encoded. -/
theorem writeDtSendsTheEncodedBlock : Obligations.WriteDtSendsTheEncodedBlock := by
  intro s hs
  obtain ⟨r, tr, e⟩ :=
    blockWriteStage_endedByCall .writeDt 0 (s := { s with mirror := encodeDT s.mirror s.dtIn }) hs
  exact ⟨_, r, rfl, tr, e⟩

/-- Settles O38: encodeDT keeps the CH that was cleared before it. -/
theorem startClockDtSendsTheBlockWithClockHaltClear : Obligations.StartClockDtSendsTheBlockWithClockHaltClear := by
  intro s hs
  let s₁ : State := { s with mirror := (encodeDT s.mirror s.dtIn).clearCh }
  have run : exec .startClockDt s = .next (blockWriteStage .startClockDt 0 s₁) := by
    simp only [s₁, ← encodeDT_clearCh]
    rfl
  obtain ⟨r, tr, e⟩ := blockWriteStage_endedByCall .startClockDt 0 (s := s₁) hs
  have running : (blockWriteStage .startClockDt 0 s₁).runO = true := by
    rw [e]
    simp [State.runO, s₁]
  exact ⟨_, r, run, tr, e, running⟩

/-- Settles O39: START_CLOCK is a clock start from its first call. -/
theorem startClockRewritesSecondsWithClockHaltClear : Obligations.StartClockRewritesSecondsWithClockHaltClear :=
  fun s hs => ⟨_, rfl, clockStart_prompt .startClock 0 s s [] hs rfl (by simp)⟩

/-- Settles O40: STOP_CLOCK is the block read and the seconds write of the byte read with CH set. -/
theorem stopClockRewritesSecondsWithClockHaltSet : Obligations.StopClockRewritesSecondsWithClockHaltSet :=
  fun _ hs => ⟨_, rfl, blockRead_secondsWrite_prompt .stopClock 0 5 (· ||| 0x80) hs fun _ => rfl⟩

/-- Settles O42: the settings differ, so the control write is made; the clock runs, so it is the last call. -/
theorem startSqwWritesControlOnceWhenRunning : Obligations.StartSqwWritesControlOnceWhenRunning := by
  intro rate s hs hch differs
  have settings : s.mirror.sqwe = false ∨ s.mirror.rs ≠ rate :=
    differs.imp_right fun ne eq => ne (by rw [← eq, Mirror.rs_toNat])
  obtain ⟨a, tr, e⟩ :=
    controlWriteStage_endedByCall rate (s := { s with mirror := s.mirror.setSquareWave rate }) hs hch
  have rs : (s.mirror.setSquareWave rate).ctl.toNat % 4 = rate.toNat := by
    rw [← Mirror.rs_toNat, Mirror.setSquareWave_rs]
  exact ⟨_, _, a, congrArg Host.Outcome.next (startSquareWave_of_differs settings),
    s.mirror.setSquareWave_sqwe rate, rs, fun _ => s.mirror.setSquareWave_sameBit rate, tr, e⟩

/-- Settles O47: the block read and the seconds write use up exactly the answers given. -/
theorem startClockUsesAnswersInOrder : Obligations.StartClockUsesAnswersInOrder := by
  intro s f b r later flags blocks hr hf hb
  have run : clockStart .startClock 0 s = s.afterClockStart b r later blocks := clockStart_of_replies hr hb
  refine congrArg Host.Outcome.next (run.trans ?_)
  simp [State.afterClockStart, State.afterBlockRead, State.nextStopFlag, hf, Mirror.clearCh, Mirror.ofBlock]

end

/-! # Refilling the mirror (R75, R254) -/

section
namespace Sys2Proof.Machine

/-- The command has ended with SUCCESS. -/
def State.succeeded (s : State) : Prop := s.phase = .idle ∧ s.result = .success

theorem not_succeeded_waitAt (cmd : Instr) (k : Nat) (s : State) : ¬ (s.waitAt cmd k).succeeded :=
  fun h => nomatch h.1

theorem not_succeeded_busFail (c : TransportCode) (s : State) : ¬ (busFail c s).succeeded :=
  fun h => nomatch h.2

/-! ## Two states with one environment get the same answers -/

section
variable {s s' : State} (h : s'.env = s.env)
include h

theorem State.nextReply_of_env_eq :
    ∃ r e, s.nextReply = (r, { s with env := e }) ∧ s'.nextReply = (r, { s' with env := e }) := by
  obtain ⟨reply, env⟩ := State.nextReply_congr h
  exact ⟨_, _, Prod.ext rfl s.nextReply_same.1, Prod.ext reply (env ▸ s'.nextReply_same.1)⟩

theorem State.nextStopFlag_of_env_eq :
    ∃ f e, s.nextStopFlag = (f, { s with env := e }) ∧ s'.nextStopFlag = (f, { s' with env := e }) := by
  obtain ⟨flag, env⟩ := State.nextStopFlag_congr h
  exact ⟨_, _, Prod.ext rfl s.nextStopFlag_same.1, Prod.ext flag (env ▸ s'.nextStopFlag_same.1)⟩

theorem State.nextBlock_of_env_eq :
    ∃ b e, s.nextBlock = (b, { s with env := e }) ∧ s'.nextBlock = (b, { s' with env := e }) := by
  obtain ⟨block, env⟩ := State.nextBlock_congr h
  exact ⟨_, _, Prod.ext rfl s.nextBlock_same.1, Prod.ext block (env ▸ s'.nextBlock_same.1)⟩

end

section
variable {cmd : Instr} {k : Nat} {next : State → State} {s s' : State}

/-- A call that a successful command makes is answered OK, and answered alike from any state with that environment. -/
theorem resultCall_of_succeeded {c : Call} {onErr : TransportCode → State → State}
    (done : (resultCall cmd k c onErr next s).succeeded) (err : ∀ e s, ¬ (onErr e s).succeeded)
    (h : s'.env = s.env) :
    ∃ e, resultCall cmd k c onErr next s = next { s with env := e } ∧
      resultCall cmd k c onErr next s' = next { s' with env := e } := by
  obtain ⟨r, e, hs, hs'⟩ := State.nextReply_of_env_eq h
  simp only [resultCall, hs] at done
  simp only [resultCall, hs, hs']
  rcases r with _ | _ | code
  · exact absurd done (not_succeeded_waitAt _ _ _)
  · exact ⟨_, rfl, rfl⟩
  · exact absurd done (err code _)

/-- A successful receive gets the same block from any state with that environment and that SAVED_STOP. -/
theorem receiveStage_of_succeeded (done : (receiveStage cmd k next s).succeeded) (h : s'.env = s.env)
    (stop : s'.savedStop = s.savedStop) :
    ∃ b e, receiveStage cmd k next s = next { s with mirror := .ofBlock b, mv := true, env := e } ∧
      receiveStage cmd k next s' = next { s' with mirror := .ofBlock b, mv := true, env := e } := by
  obtain ⟨r, e, hs, hs'⟩ := State.nextReply_of_env_eq h
  simp only [receiveStage, hs] at done
  simp only [receiveStage, hs, hs']
  rcases r with _ | _ | code
  · exact absurd done (not_succeeded_waitAt _ _ _)
  · obtain ⟨b, e₂, hb, hb'⟩ :=
      State.nextBlock_of_env_eq (s := { s with env := e }) (s' := { s' with env := e }) rfl
    simp only [hb, hb']
    exact ⟨b, _, rfl, by simp only [restoreStop, State.emit, stop]⟩
  · exact absurd done (not_succeeded_busFail _ _)

theorem sendPointerStage_of_succeeded (done : (sendPointerStage cmd k next s).succeeded) (h : s'.env = s.env)
    (stop : s'.savedStop = s.savedStop) :
    ∃ b e, sendPointerStage cmd k next s = next { s with mirror := .ofBlock b, mv := true, env := e } ∧
      sendPointerStage cmd k next s' = next { s' with mirror := .ofBlock b, mv := true, env := e } := by
  obtain ⟨e₁, sent, sent'⟩ := resultCall_of_succeeded done (fun _ _ => not_succeeded_busFail _ _) h
  rw [sendPointerStage, sent] at done
  obtain ⟨b, e, received, received'⟩ :=
    receiveStage_of_succeeded done (s' := { s' with env := e₁ }) rfl stop
  exact ⟨b, e, sent.trans received, sent'.trans received'⟩

/-- The block read of a successful command overwrites the mirror, MV and SAVED_STOP with what the environment alone
determines (R180). -/
theorem blockRead_of_succeeded (done : (blockRead cmd k next s).succeeded) (h : s'.env = s.env) :
    ∃ b f e, blockRead cmd k next s = next { s with mirror := .ofBlock b, mv := true, savedStop := f, env := e } ∧
      blockRead cmd k next s' = next { s' with mirror := .ofBlock b, mv := true, savedStop := f, env := e } := by
  obtain ⟨f, e, hs, hs'⟩ := State.nextStopFlag_of_env_eq h
  simp only [blockRead, hs] at done
  simp only [blockRead, hs, hs']
  obtain ⟨b, e, run, run'⟩ := sendPointerStage_of_succeeded done
    (s' := ({ s' with savedStop := f, env := e }.emit .getStop (.flag f)).emit .setRepeatedStart .none) rfl rfl
  exact ⟨b, f, e, run, run'⟩

end

/-! ## Changes of the mirror alone -/

theorem exec_of_changesOnlyMirror {i : Instr} (h : changesOnlyMirror i = true) (s : State) :
    ∃ m, exec i s = .next (finish .success { s with mirror := m }) := by
  cases i with
  | mirWr | dtEncode | clkEnable | clkDisable | sqwRateSet | sqwEnSet | outSet => exact ⟨_, rfl⟩
  | _ => cases h

/-- A part of a command that, if it ends with SUCCESS, ends alike whatever RESULT and PHASE held before. -/
def OverwritesStatus (f : State → State) : Prop :=
  ∀ s, (f s).succeeded → f (finish .success s) = f s

theorem secondsWriteStage_overwritesStatus (cmd : Instr) (k : Nat) : OverwritesStatus (secondsWriteStage cmd k) := by
  intro s done
  obtain ⟨e, run, run'⟩ := resultCall_of_succeeded done not_succeeded_busFail (s' := finish .success s) rfl
  exact run'.trans run.symm

/-- A refilling command that succeeds ends as it does without an earlier change made to the mirror alone (R254). -/
theorem blockRead_overwrites {cmd : Instr} {k : Nat} {next : State → State} (h : OverwritesStatus next) {s : State}
    (m : Mirror) (done : (blockRead cmd k next s).succeeded) :
    blockRead cmd k next (finish .success { s with mirror := m }) = blockRead cmd k next s := by
  obtain ⟨b, f, e, run, run'⟩ := blockRead_of_succeeded done (s' := finish .success { s with mirror := m }) rfl
  rw [run] at done
  rw [run, run']
  exact h _ done

/-- The four refilling commands are a block read and a part that overwrites RESULT and PHASE. -/
theorem exec_refilling {j : Instr} (h : j = .readAll ∨ j = .readDt ∨ j = .startClock ∨ j = .stopClock) :
    ∃ next, OverwritesStatus next ∧ ∀ s, exec j s = .next (blockRead j 0 next s) := by
  rcases h with rfl | rfl | rfl | rfl
  · exact ⟨finish .success, fun _ _ => rfl, fun _ => rfl⟩
  · exact ⟨publishDatetime, fun _ _ => rfl, fun _ => rfl⟩
  · exact ⟨clockStartWrite .startClock 5,
      fun s => secondsWriteStage_overwritesStatus _ _ { s with mirror := s.mirror.clearCh }, fun _ => rfl⟩
  · exact ⟨clockStopWrite,
      fun s => secondsWriteStage_overwritesStatus _ _ { s with mirror := s.mirror.setCh }, fun _ => rfl⟩

end Sys2Proof.Machine
end

section
open Sys2Proof Sys2Proof.Machine

/-- Settles O48: a mirror-only change leaves the environment, so the block read receives the same bytes after it, and
every field the change wrote is overwritten. -/
theorem refillOverwritesLocalMirrorChanges : Obligations.RefillOverwritesLocalMirrorChanges := by
  intro i j s u t t' hi hj hu ht ht' idle success
  obtain ⟨m, change⟩ := exec_of_changesOnlyMirror hi s
  obtain ⟨next, overwrites, refill⟩ := exec_refilling hj
  obtain rfl : finish .success { s with mirror := m } = u := Host.Outcome.next.inj (change.symm.trans hu)
  obtain rfl : blockRead j 0 next s = t := Host.Outcome.next.inj ((refill s).symm.trans ht)
  obtain rfl : blockRead j 0 next (finish .success { s with mirror := m }) = t' :=
    Host.Outcome.next.inj ((refill _).symm.trans ht')
  exact blockRead_overwrites overwrites m ⟨idle, success⟩

end

/-! # The command word and its fields (R90 to R94, R98)

`Fields.HasForm` says when fields are a command of one opcode; the decoder, the encoder and the opcode table are each
tied to it once. -/

section
namespace Sys2Proof

/-! ## A word is its three fields -/

@[simp] theorem Fields.ofWord_toWord (f : Fields) : Fields.ofWord f.toWord = f := by
  obtain ⟨op, a, imm⟩ := f
  have hop : (op ++ a ++ imm).extractLsb' 11 5 = op := by
    rw [BitVec.extractLsb'_append_eq_of_le (by decide), BitVec.extractLsb'_append_eq_left]
  have ha : (op ++ a ++ imm).extractLsb' 8 3 = a := by
    rw [BitVec.extractLsb'_append_eq_of_le (by decide), BitVec.extractLsb'_append_eq_right]
  have himm : (op ++ a ++ imm).extractLsb' 0 8 = imm := BitVec.extractLsb'_append_eq_right
  simp only [Fields.ofWord, Fields.toWord, hop, ha, himm]

@[simp] theorem Fields.toWord_ofWord (w : CommandWord) : (Fields.ofWord w).toWord = w := by
  have high : w.extractLsb' 11 5 ++ w.extractLsb' 8 3 = w.extractLsb' 8 8 :=
    BitVec.extractLsb'_append_extractLsb'_eq_extractLsb' rfl
  simp only [Fields.ofWord, Fields.toWord, high]
  exact BitVec.extractLsb'_append_extractLsb' (w := 8) (len := 8)

theorem Fields.toWord_inj {f g : Fields} : f.toWord = g.toWord ↔ f = g :=
  ⟨fun h => by simpa using congrArg Fields.ofWord h, congrArg _⟩

/-- Masking a word masks each field (R93). -/
theorem Fields.toWord_and (f g : Fields) :
    f.toWord &&& g.toWord = Fields.toWord ⟨f.op &&& g.op, f.a &&& g.a, f.imm &&& g.imm⟩ :=
  BitVec.and_append.trans (congrArg (· ++ (f.imm &&& g.imm)) BitVec.and_append)

/-! ## The op column (R91) -/

theorem Opcode.ofBits_eq_some_iff {op : BitVec 5} {o : Opcode} : Opcode.ofBits op = some o ↔ op = o.bits := by
  constructor
  · revert op
    cases o <;> decide
  · rintro rfl
    cases o <;> rfl

theorem Opcode.bits_inj {o o' : Opcode} (h : o.bits = o'.bits) : o = o' :=
  Option.some.inj ((Opcode.ofBits_eq_some_iff.mpr rfl).symm.trans (Opcode.ofBits_eq_some_iff.mpr h))

/-- The reserved op values (R94). -/
theorem Opcode.ofBits_eq_none_iff {op : BitVec 5} :
    Opcode.ofBits op = none ↔ op = 0x00 ∨ (0x0C ≤ op.toNat ∧ op.toNat ≤ 0x0F) ∨ 0x18 ≤ op.toNat := by
  revert op
  decide

/-! ## The fields of a command -/

/-- The fields are a command of opcode `o`: its op value, and 0 in every bit that must be 0 (R91, R93). -/
def Fields.HasForm (o : Opcode) (f : Fields) : Prop := f.op = o.bits ∧ f.aLegal o = true ∧ f.immLegal o = true

variable {o o' : Opcode} {f : Fields} {i : Instr} {w : CommandWord}

theorem Fields.aLegal_iff : f.aLegal o = true ↔ (o.takesIndex = false → f.a = 0) := by
  cases h : o.takesIndex <;> simp [Fields.aLegal, h]

theorem Fields.immLegal_iff : f.immLegal o = true ↔ f.imm &&& ~~~ o.immOperandBits = 0 := beq_iff_eq

theorem Fields.HasForm.opcode_eq (h : f.HasForm o) (h' : f.HasForm o') : o = o' :=
  Opcode.bits_inj (h.1.symm.trans h'.1)

theorem Fields.wellFormed_iff : f.wellFormed = true ↔ ∃ o, f.HasForm o := by
  simp only [Fields.HasForm, ← Opcode.ofBits_eq_some_iff, Fields.wellFormed]
  cases Opcode.ofBits f.op <;> simp

/-- The decoder accepts the fields of a command, and no others. -/
theorem decodeFields_eq_ok_iff : decodeFields f = .ok i ↔ ∃ o, f.HasForm o ∧ o.withOperands f = i := by
  have index (o : Opcode) : (!o.takesIndex && f.a != 0) = !f.aLegal o := by simp [Fields.aLegal, bne]
  have imm (o : Opcode) : (f.imm &&& ~~~ o.immOperandBits != 0) = !f.immLegal o := rfl
  simp only [Fields.HasForm, ← Opcode.ofBits_eq_some_iff, decodeFields, index, imm]
  rcases Opcode.ofBits f.op with _ | o
  · simp
  · cases ha : f.aLegal o <;> cases himm : f.immLegal o <;> simp [ha, himm]

theorem decode_eq_error_iff : (∃ e, decode w = .error e) ↔ ∀ o, ¬ (Fields.ofWord w).HasForm o := by
  have ok : (∃ i, decode w = .ok i) ↔ ∃ o, (Fields.ofWord w).HasForm o := by simp [decode, decodeFields_eq_ok_iff]
  rw [← not_exists, ← ok]
  cases decode w <;> simp

/-- Fields are no command by a reserved op, or by a bit that must be 0 (R94). -/
theorem Fields.not_hasForm_iff : (∀ o, ¬ f.HasForm o) ↔ Opcode.ofBits f.op = none ∨
    ∃ o, Opcode.ofBits f.op = some o ∧ ((o.takesIndex = false ∧ f.a ≠ 0) ∨ f.imm &&& ~~~ o.immOperandBits ≠ 0) := by
  simp only [Fields.HasForm, ← Opcode.ofBits_eq_some_iff, Fields.aLegal_iff, Fields.immLegal_iff]
  rcases Opcode.ofBits f.op with _ | o
  · simp
  · simp only [reduceCtorEq, false_or, Option.some.injEq, exists_eq_left', ne_eq, not_and, forall_eq']
    tauto

/-! ## The encoder (R91, R92, R98) -/

/-- The opcode of a command (R91). -/
def Instr.opcode : Instr → Opcode
  | .bcdDec _ => .bcdDec
  | .bcdEnc _ => .bcdEnc
  | .mirRd _ => .mirRd
  | .mirWr _ _ => .mirWr
  | .dtDecode => .dtDecode
  | .dtEncode => .dtEncode
  | .clkEnable => .clkEnable
  | .clkDisable => .clkDisable
  | .sqwRateSet _ => .sqwRateSet
  | .sqwEnSet _ => .sqwEnSet
  | .outSet _ => .outSet
  | .init => .init
  | .readAll => .readAll
  | .readDt => .readDt
  | .writeDt => .writeDt
  | .startClockDt => .startClockDt
  | .startClock => .startClock
  | .stopClock => .stopClock
  | .startSqw _ => .startSqw

theorem Instr.toFields_op (i : Instr) : i.toFields.op = i.opcode.bits := by cases i <;> rfl

theorem Instr.toFields_wellFormed (i : Instr) : i.toFields.wellFormed = true := by
  cases i with
  | bcdDec imm => exact Laws.FieldsWellFormed.bcdDec imm
  | bcdEnc imm => exact Laws.FieldsWellFormed.bcdEnc imm
  | mirRd a => exact Laws.FieldsWellFormed.mirRd a
  | mirWr a imm => exact Laws.FieldsWellFormed.mirWr a imm
  | sqwRateSet rate => exact Laws.FieldsWellFormed.sqwRateSet rate
  | sqwEnSet enable => exact Laws.FieldsWellFormed.sqwEnSet enable
  | outSet level => exact Laws.FieldsWellFormed.outSet level
  | startSqw rate => exact Laws.FieldsWellFormed.startSqw rate
  | _ => rfl

theorem Instr.toFields_hasForm (i : Instr) : i.toFields.HasForm i.opcode := by
  obtain ⟨o, form⟩ := Fields.wellFormed_iff.mp i.toFields_wellFormed
  obtain rfl : o = i.opcode := Opcode.bits_inj (form.1.symm.trans i.toFields_op)
  exact form

/-- The operands read back from a command's own fields are its operands (R92). -/
theorem Instr.withOperands_toFields (i : Instr) : i.opcode.withOperands i.toFields = i := by
  cases i with
  | sqwRateSet rate | startSqw rate =>
    have read : (rate.setWidth 8).extractLsb' 0 2 = rate := by revert rate; decide
    simp only [Instr.opcode, Instr.toFields, Opcode.withOperands, read]
  | sqwEnSet b | outSet b => cases b <;> rfl
  | _ => rfl

/-- A rate operand and a boolean operand fill the operand bits of imm (R92). -/
theorem setWidth_extractLsb'_of_and_not (imm : BitVec 8) :
    imm &&& ~~~0x03 = 0 → (imm.extractLsb' 0 2).setWidth 8 = imm := by
  revert imm
  decide

theorem boolImm_getLsbD_of_and_not (imm : BitVec 8) : imm &&& ~~~0x01 = 0 → boolImm (imm.getLsbD 0) = imm := by
  revert imm
  decide

/-- The fields of a command are determined by its opcode and operands: every other bit is 0 (R93). -/
theorem Opcode.toFields_withOperands (h : f.HasForm o) : (o.withOperands f).toFields = f := by
  obtain ⟨op, a, imm⟩ := f
  obtain ⟨rfl, ha, himm⟩ := h
  replace ha : o.takesIndex = false → a = 0 := Fields.aLegal_iff.mp ha
  replace himm : imm &&& ~~~ o.immOperandBits = 0 := Fields.immLegal_iff.mp himm
  have unused (h : o.immOperandBits = 0) : imm = 0 := by
    rw [h] at himm
    exact BitVec.and_allOnes.symm.trans himm
  cases o with
  | bcdDec | bcdEnc => obtain rfl := ha rfl; rfl
  | mirRd => obtain rfl := unused rfl; rfl
  | mirWr => rfl
  | sqwRateSet | startSqw =>
    obtain rfl := ha rfl
    exact congrArg (Fields.mk _ 0) (setWidth_extractLsb'_of_and_not imm himm)
  | sqwEnSet | outSet =>
    obtain rfl := ha rfl
    exact congrArg (Fields.mk _ 0) (boolImm_getLsbD_of_and_not imm himm)
  | _ => obtain rfl := ha rfl; obtain rfl := unused rfl; rfl

/-- A word decodes to a command exactly when it is that command's word. -/
theorem decode_eq_ok_iff : decode w = .ok i ↔ encode i = w := by
  rw [decode, decodeFields_eq_ok_iff]
  constructor
  · rintro ⟨o, form, rfl⟩
    rw [encode, Opcode.toFields_withOperands form, Fields.toWord_ofWord]
  · rintro rfl
    rw [encode, Fields.ofWord_toWord]
    exact ⟨i.opcode, i.toFields_hasForm, i.withOperands_toFields⟩

end Sys2Proof
end

section
open Sys2Proof Sys2Proof.Machine

/-- Settles O2: the fields of a command have its opcode's form, and its operands are read back from them. -/
theorem decodeOfEncodeIsIdentity : Obligations.DecodeOfEncodeIsIdentity := fun _ => decode_eq_ok_iff.mpr rfl

/-- Settles O3: fields of an opcode's form are those of the command they stand for, and a word is its fields. -/
theorem encodeOfDecodeIsIdentity : Obligations.EncodeOfDecodeIsIdentity := fun _ _ => decode_eq_ok_iff.mp

/-- Settles O1: eleven of the words are the encodings of their commands, and the op of the last is reserved. -/
theorem commandWordsDecodeAsWritten : Obligations.CommandWordsDecodeAsWritten := by
  unfold Obligations.CommandWordsDecodeAsWritten
  simp only [decode_eq_ok_iff]
  decide

end

/-! # The opcode table (R93, opcode_table.json) -/

section
namespace Sys2Proof

/-- The word of an opcode with every operand bit 0, as fields. -/
def Opcode.patternFields (o : Opcode) : Fields := ⟨o.bits, 0, 0⟩

/-- The bits of a word that are not operand bits of the opcode, as fields. -/
def Opcode.maskFields (o : Opcode) : Fields := ⟨0x1F, if o.takesIndex then 0 else 7, ~~~ o.immOperandBits⟩

/-- The row of an opcode: its mask and match as the columns of R91 give them. -/
def Opcode.row (o : Opcode) : OpcodeRow :=
  ⟨(o.withOperands o.patternFields).mnemonic, o.maskFields.toWord, o.patternFields.toWord⟩

/-- The opcodes in the order of opcode_table.json. -/
def Opcode.inTableOrder : List Opcode :=
  [.bcdDec, .bcdEnc, .mirRd, .mirWr, .dtDecode, .dtEncode, .clkEnable, .clkDisable, .sqwRateSet, .sqwEnSet, .outSet,
   .init, .readAll, .readDt, .writeDt, .startClockDt, .startClock, .stopClock, .startSqw]

theorem opcodeTable_eq_map_row : opcodeTable = Opcode.inTableOrder.map Opcode.row := by decide

theorem Opcode.count_inTableOrder (o : Opcode) : Opcode.inTableOrder.count o = 1 := by cases o <;> rfl

theorem Opcode.row_mnemonic (o : Opcode) (f : Fields) : o.row.mnemonic = (o.withOperands f).mnemonic := by
  cases o <;> rfl

theorem Opcode.row_accepts_iff {o : Opcode} {w : CommandWord} :
    o.row.accepts w = true ↔ (Fields.ofWord w).HasForm o := by
  set f := Fields.ofWord w with hf
  have op : f.op &&& 0x1F = f.op := BitVec.and_allOnes
  have index : f.a &&& (if o.takesIndex then 0 else 7) = 0 ↔ f.aLegal o = true := by
    rw [Fields.aLegal_iff]
    cases o.takesIndex
    · have all : f.a &&& 7 = f.a := BitVec.and_allOnes
      simp only [Bool.false_eq_true, if_false, all, forall_const]
    · simp
  calc o.row.accepts w = true
    _ ↔ f.toWord &&& o.maskFields.toWord = o.patternFields.toWord := by
      rw [hf, Fields.toWord_ofWord]
      exact beq_iff_eq
    _ ↔ f.op &&& 0x1F = o.bits ∧ f.a &&& (if o.takesIndex then 0 else 7) = 0 ∧ f.imm &&& ~~~ o.immOperandBits = 0 := by
      rw [Fields.toWord_and, Fields.toWord_inj, Opcode.maskFields, Opcode.patternFields, Fields.mk.injEq]
    _ ↔ f.HasForm o := by rw [op, index, ← Fields.immLegal_iff, Fields.HasForm]

/-- The rows that accept a command of opcode `o`: that of `o`. -/
theorem filter_accepts_of_hasForm {o : Opcode} {w : CommandWord} (form : (Fields.ofWord w).HasForm o) :
    opcodeTable.filter (·.accepts w) = [o.row] := by
  have only (o' : Opcode) : o'.row.accepts w = decide (o' = o) := by
    rw [Bool.eq_iff_iff, Opcode.row_accepts_iff, decide_eq_true_iff]
    exact ⟨fun form' => form'.opcode_eq form, fun e => e ▸ form⟩
  have filtered : Opcode.inTableOrder.filter (fun o' => o'.row.accepts w) = [o] := by
    simp only [only, List.filter_eq, Opcode.count_inTableOrder, List.replicate_one]
  simpa [opcodeTable_eq_map_row, List.filter_map, Function.comp_def] using congrArg (List.map Opcode.row) filtered

theorem filter_accepts_of_not_hasForm {w : CommandWord} (none : ∀ o, ¬ (Fields.ofWord w).HasForm o) :
    opcodeTable.filter (·.accepts w) = [] := by
  rw [opcodeTable_eq_map_row, List.filter_eq_nil_iff, List.forall_mem_map]
  exact fun o _ accepts => none o (Opcode.row_accepts_iff.mp accepts)

end Sys2Proof
end

section
open Sys2Proof Sys2Proof.Machine

/-- Settles O4: the table is the columns of R91 as masks, so a row accepts the fields of its opcode's form, and fields
have the form of one opcode at most. -/
theorem acceptedWordsMatchExactlyTheirTableRow : Obligations.AcceptedWordsMatchExactlyTheirTableRow := by
  intro w
  split
  next i legal =>
    obtain ⟨o, form, rfl⟩ := decodeFields_eq_ok_iff.mp legal
    simp [filter_accepts_of_hasForm form, o.row_mnemonic (Fields.ofWord w)]
  next e illegal => simp [filter_accepts_of_not_hasForm (decode_eq_error_iff.mp ⟨e, illegal⟩)]

/-- Settles O5: an illegal word is one whose fields have the form of no opcode, and taking it off the port finishes at
once. -/
theorem illegalWordsWriteOnlyResult : Obligations.IllegalWordsWriteOnlyResult := by
  intro s c rest idle first f reserved nonzero
  have illegal : (∃ e, decode c.word = .error e) ↔ reserved ∨ nonzero := by
    rw [decode_eq_error_iff, Fields.not_hasForm_iff, Opcode.ofBits_eq_none_iff]
  refine ⟨illegal, fun h => ?_⟩
  obtain ⟨e, he⟩ := illegal.mpr h
  exact step_of_illegal idle first he

end

/-! # The formats of the encoded bytes (R80 to R88, R142) -/

section
namespace Sys2Proof.Machine

theorem bcdBetween_of_packs {b : Byte} {n lo hi : Nat} (h : packs b n) (lower : lo ≤ n) (upper : n ≤ hi)
    (digits : n ≤ 99) : bcdBetween b lo hi = true := by
  obtain ⟨tens, units⟩ := h
  simp only [bcdBetween, isBcd, tens, units, Bool.and_eq_true, decide_eq_true_eq]
  omega

/-- The encoding of a value within its register's range has the register's format (R80, R112). -/
theorem bcdBetween_encodeBcd {n lo hi : Nat} (lower : lo ≤ n) (upper : n ≤ hi) (digits : hi ≤ 99) :
    bcdBetween (encodeBcd (BitVec.ofNat 8 n)) lo hi = true :=
  bcdBetween_of_packs (encodeBcd_packs n (upper.trans digits)) lower upper (upper.trans digits)

theorem bcdBetween_encodeBcd_clamp (x : Nat) {lo hi : Nat} (range : lo ≤ hi) (digits : hi ≤ 99) :
    bcdBetween (encodeBcd (BitVec.ofNat 8 (clamp x lo hi))) lo hi = true :=
  bcdBetween_encodeBcd (le_clamp x lo hi range) (clamp_le x lo hi) digits

theorem bcdBetween_encodeBcd_mod (x : Nat) {m : Nat} (pos : 0 < m) (digits : m ≤ 100) :
    bcdBetween (encodeBcd (BitVec.ofNat 8 (x % m))) 0 (m - 1) = true :=
  bcdBetween_encodeBcd (Nat.zero_le _) (Nat.le_sub_one_of_lt (Nat.mod_lt x pos)) (by omega)

/-- encodeDT writes the seconds digits beside CH, and the encoding leaves bit 7 to it (R81, R142). -/
theorem encodeDT_sec_and_7F (m : Mirror) (dt : Datetime) :
    (encodeDT m dt).sec &&& 0x7F = encodeBcd (BitVec.ofNat 8 (dt.second.toNat % 60)) := by
  have ch : m.sec &&& 0x80 &&& 0x7F = 0 := by
    rw [BitVec.and_assoc]
    exact BitVec.and_zero
  simp only [encodeDT, BitVec.and_or_distrib_right, ch, encodeBcd_second_and_7F]
  exact BitVec.zero_or

/-! ## The hour byte (R83, R84) -/

/-- The format of an hour byte: bit 7 clear, and the digits in the range of its mode (R83, R84). -/
def hourFormatted (hour : Byte) : Bool :=
  !hour.getLsbD 7 && if hour.getLsbD 6 then bcdBetween (hour &&& 0x1F) 1 12 else bcdBetween hour 0 23

theorem hourFormatted_mode12 (pm : Bool) (v : Byte) : 1 ≤ v.toNat → v.toNat ≤ 12 →
    hourFormatted (0x40 ||| (if pm then 0x20 else 0x00) ||| encodeBcd v) = true := by
  revert pm v
  decide

theorem hourFormatted_mode24 (v : Byte) : v.toNat ≤ 23 → hourFormatted (encodeBcd v) = true := by
  revert v
  decide

theorem encodeHour_formatted (dt : Datetime) : hourFormatted (encodeHour dt) = true := by
  unfold encodeHour
  split
  · apply hourFormatted_mode12 <;> rw [BitVec.toNat_ofNat] <;> split <;> omega
  · apply hourFormatted_mode24
    rw [BitVec.toNat_ofNat]
    omega

/-! ## The whole mirror -/

/-- The format of the mirror is that of each of its bytes (R81 to R88). -/
theorem Mirror.formatted_iff (m : Mirror) : m.formatted = true ↔
    bcdBetween (m.sec &&& 0x7F) 0 59 = true ∧ bcdBetween m.min 0 59 = true ∧ hourFormatted m.hour = true ∧
      (1 ≤ m.wday.toNat ∧ m.wday.toNat ≤ 7) ∧ bcdBetween m.day 1 31 = true ∧ bcdBetween m.mon 1 12 = true ∧
      bcdBetween m.year 0 99 = true := by
  simp only [Mirror.formatted, hourFormatted, Mirror.hourMode12, Bool.and_eq_true, decide_eq_true_eq, and_assoc]
  rfl

/-- Every byte that encodeDT writes has its register's format, whatever was there before (R142, R144). -/
theorem encodeDT_formatted (m : Mirror) (dt : Datetime) : (encodeDT m dt).formatted = true := by
  have wday : (encodeDT m dt).wday.toNat = clamp dt.weekday.toNat 1 7 := by
    have := clamp_le dt.weekday.toNat 1 7
    simp only [encodeDT, BitVec.toNat_ofNat]
    omega
  refine (Mirror.formatted_iff _).mpr ⟨?sec, ?min, encodeHour_formatted dt, ?wday, ?day, ?mon, ?year⟩
  case sec => exact encodeDT_sec_and_7F m dt ▸ bcdBetween_encodeBcd_mod _ (by decide) (by decide)
  case min => exact bcdBetween_encodeBcd_mod _ (by decide) (by decide)
  case wday => exact wday ▸ ⟨le_clamp _ _ _ (by decide), clamp_le _ _ _⟩
  case day | mon => exact bcdBetween_encodeBcd_clamp _ (by decide) (by decide)
  case year => exact bcdBetween_encodeBcd_mod _ (by decide) (by decide)

end Sys2Proof.Machine
end

section
open Sys2Proof Sys2Proof.Machine

/-- Settles O22: the mirror that DT_ENCODE leaves is the one that encodeDT gives. -/
theorem encodedBytesHaveTheRegisterFormats : Obligations.EncodedBytesHaveTheRegisterFormats :=
  fun s => ⟨_, exec_of_isLocal rfl s, encodeDT_formatted s.mirror s.dtIn⟩

end

/-! # The BCD codec as arithmetic on values (R110, R112, R114) -/

section
namespace Sys2Proof.Machine

theorem bcdUnits_lt (b : Byte) : bcdUnits b < 16 := (b.extractLsb' 0 4).isLt

/-- The digits of a byte are its nibbles (R80). -/
theorem toNat_eq_digits (b : Byte) : b.toNat = 16 * bcdTens b + bcdUnits b := by
  simp only [bcdTens, bcdUnits, BitVec.extractLsb'_toNat, Nat.shiftRight_eq_div_pow]
  omega

theorem isBcd_iff (b : Byte) : isBcd b = true ↔ bcdTens b ≤ 9 ∧ bcdUnits b ≤ 9 := by
  simp only [isBcd, Bool.and_eq_true, decide_eq_true_eq]

theorem encodeBcd_packs_toNat {v : Byte} (h : v.toNat ≤ 99) : packs (encodeBcd v) v.toNat := by
  simpa only [BitVec.ofNat_toNat, BitVec.setWidth_eq] using encodeBcd_packs v.toNat h

/-- R112's formula: a packed byte of `n` is `16 * (n / 10) + n % 10`. -/
theorem toNat_of_packs {b : Byte} {n : Nat} (h : packs b n) : b.toNat = n + 6 * (n / 10) := by
  obtain ⟨tens, units⟩ := h
  rw [toNat_eq_digits, tens, units]
  omega

theorem encodeBcd_of_gt {v : Byte} (h : 99 < v.toNat) : encodeBcd v = Config.encOor v := if_neg (Nat.not_le.mpr h)

/-- R114 item 1: the digits `n / 10` and `n % 10` that encoding packs are the ones that decoding weighs. -/
theorem decodeBcd_encodeBcd {v : Byte} (h : v.toNat ≤ 99) : decodeBcd (encodeBcd v) = v := by
  obtain ⟨tens, units⟩ := encodeBcd_packs_toNat h
  apply BitVec.eq_of_toNat_eq
  rw [decodeBcd_toNat, tens, units, Nat.div_add_mod]

/-- R114 item 2: with both digits at most 9 the decoded value is at most 99, and its digits are those of the byte. -/
theorem encodeBcd_decodeBcd {b : Byte} (h : isBcd b = true) : encodeBcd (decodeBcd b) = b := by
  obtain ⟨tens, units⟩ := (isBcd_iff b).mp h
  have value := decodeBcd_toNat b
  have byte := toNat_eq_digits b
  apply BitVec.eq_of_toNat_eq
  rw [toNat_of_packs (encodeBcd_packs_toNat (by omega)), value]
  omega

end Sys2Proof.Machine
end

section
open Sys2Proof Sys2Proof.Machine

/-- Settles O15: of `16 * tens + units` the formula takes away `6 * tens`, whatever the nibbles. -/
theorem bcdDecWritesTheFormulaValue : Obligations.BcdDecWritesTheFormulaValue := by
  refine fun b s => ⟨decodeBcd b, exec_local_eq rfl s, ?formula, decodeBcd_toNat b, decodeBcd_le b⟩
  have value := decodeBcd_toNat b
  have byte := toNat_eq_digits b
  have units := bcdUnits_lt b
  omega

/-- Settles O16: up to 99 the byte is the packed one, above it is the open parameter. -/
theorem bcdEncWritesPackedBcd : Obligations.BcdEncWritesPackedBcd := by
  refine fun v s => ⟨encodeBcd v, exec_local_eq rfl s, fun h => ?_, encodeBcd_of_gt⟩
  have packed := encodeBcd_packs_toNat h
  exact ⟨toNat_of_packs packed, packed⟩

/-- Settles O17: the two round trips, and a byte that is not BCD decoding as a BCD one does. -/
theorem bcdCodecRoundTrips : Obligations.BcdCodecRoundTrips :=
  ⟨fun _ => decodeBcd_encodeBcd, fun _ => encodeBcd_decodeBcd, by decide, by decide⟩

end

/-! # The status outputs after a mirror write (R121 to R127) -/

section
namespace Sys2Proof.Machine

/-- Bit 7 of a byte is its place above 127. -/
theorem getLsbD_seven_eq_decide (v : Byte) : v.getLsbD 7 = decide (128 ≤ v.toNat) :=
  v.msb_eq_getLsbD_last.symm.trans v.msb_eq_decide

/-- The control byte alone decides the outputs of R122 to R125. -/
theorem controlOutputs_of_ctl {s : State} {v : Byte} (h : s.mirror.ctl = v) :
    s.sqweO = v.getLsbD 4 ∧ s.rateO.toNat = v.toNat % 4 ∧ s.outO = decide (128 ≤ v.toNat) ∧
      (s.pudO = true ↔ v = 0x03) := by
  subst h
  exact ⟨rfl, s.mirror.rs_toNat, getLsbD_seven_eq_decide _, beq_iff_eq⟩

/-- RUN_O is the complement of bit 7 of the seconds byte (R126). -/
theorem runO_of_sec {s : State} {v : Byte} (h : s.mirror.sec = v) : s.runO = decide (v.toNat < 128) := by
  rw [State.runO, Mirror.ch, h, getLsbD_seven_eq_decide, ← decide_not, decide_eq_decide, Nat.not_le]

/-- H12_O is bit 6 of the hour byte (R127). -/
theorem h12O_of_hour {s : State} {v : Byte} (h : s.mirror.hour = v) : s.h12O = v.getLsbD 6 :=
  congrArg (·.getLsbD 6) h

end Sys2Proof.Machine
end

section
open Sys2Proof Sys2Proof.Machine

/-- Settles O13: the indexed byte of the mirror is then the byte written, and each output is a function of that byte. -/
theorem statusOutputsFollowTheMirror : Obligations.StatusOutputsFollowTheMirror := by
  intro s v
  have written (a : BitVec 3) := s.mirror.get_set_same a v
  exact ⟨⟨_, exec_local_eq rfl s, controlOutputs_of_ctl (written 7)⟩, ⟨_, exec_local_eq rfl s, runO_of_sec (written 0)⟩,
    ⟨_, exec_local_eq rfl s, h12O_of_hour (written 2)⟩⟩

end

/-! # The mapper: the encoded bytes and the decoded fields (R140 to R147) -/

section
namespace Sys2Proof.Machine

/-! ## The two commands (R141, R143) -/

theorem exec_dtDecode (s : State) :
    exec .dtDecode s = .next { s with dtOut := decodeDT s.mirror, result := .success, phase := .idle } := rfl

theorem exec_dtEncode (s : State) :
    exec .dtEncode s = .next { s with mirror := encodeDT s.mirror s.dtIn, result := .success, phase := .idle } := rfl

/-! ## Wrapped and clamped values -/

theorem toNat_ofNat_mod {w m : Nat} (x : Nat) (pos : 0 < m) (fits : m ≤ 2 ^ w) :
    (BitVec.ofNat w (x % m)).toNat = x % m :=
  (BitVec.toNat_ofNat _ _).trans (Nat.mod_eq_of_lt ((Nat.mod_lt x pos).trans_le fits))

theorem toNat_ofNat_clamp {w hi : Nat} (x lo : Nat) (fits : hi < 2 ^ w) :
    (BitVec.ofNat w (clamp x lo hi)).toNat = clamp x lo hi :=
  (BitVec.toNat_ofNat _ _).trans (Nat.mod_eq_of_lt ((clamp_le x lo hi).trans_lt fits))

theorem clamp_clamp (x lo hi : Nat) : clamp (clamp x lo hi) lo hi = clamp x lo hi := by
  unfold clamp
  omega

/-- A value within its bounds is its own clamped value (R8). -/
theorem clamp_of_mem {x lo hi : Nat} (lower : lo ≤ x) (upper : x ≤ hi) : clamp x lo hi = x := by
  unfold clamp
  omega

theorem encodeBcd_mod_packs (x : Nat) {m : Nat} (pos : 0 < m) (digits : m ≤ 100) :
    packs (encodeBcd (BitVec.ofNat 8 (x % m))) (x % m) :=
  encodeBcd_packs _ (Nat.le_of_lt_succ ((Nat.mod_lt x pos).trans_le digits))

theorem encodeBcd_clamp_packs (x lo : Nat) {hi : Nat} (digits : hi ≤ 99) :
    packs (encodeBcd (BitVec.ofNat 8 (clamp x lo hi))) (clamp x lo hi) :=
  encodeBcd_packs _ ((clamp_le x lo hi).trans digits)

/-- R114 item 1 on numbers. -/
theorem decodeBcd_encodeBcd_ofNat {n : Nat} (h : n ≤ 99) :
    decodeBcd (encodeBcd (BitVec.ofNat 8 n)) = BitVec.ofNat 8 n := by
  apply decodeBcd_encodeBcd
  rw [BitVec.toNat_ofNat]
  omega

/-- A mask that keeps the low nibble keeps the units digit (R80). -/
theorem bcdUnits_and (b : Byte) {mask : Byte} (h : mask.extractLsb' 0 4 = BitVec.allOnes 4) :
    bcdUnits (b &&& mask) = bcdUnits b := by
  rw [bcdUnits, BitVec.extractLsb'_and, h, BitVec.and_allOnes, bcdUnits]

/-! ## The hour byte (R142) -/

/-- The hour that 12-hour mode shows: the wrapped hour, with 12 for 0 (R142). -/
def hour12 (n : Nat) : Nat := if n % 12 = 0 then 12 else n % 12

theorem hour12_le (n : Nat) : hour12 n ≤ 12 := by
  unfold hour12
  split <;> omega

theorem hour12_mod (n : Nat) : hour12 (n % 12) = hour12 n := by simp [hour12]

/-- The hours 1 to 12 are shown as they are (R147). -/
theorem hour12_of_mem {n : Nat} (lower : 1 ≤ n) (upper : n ≤ 12) : hour12 n = n := by
  unfold hour12
  split <;> omega

theorem encodeHour_of_mode12 {dt : Datetime} (h : dt.mode12h = true) : encodeHour dt =
    0x40 ||| (if dt.pm then 0x20 else 0x00) ||| encodeBcd (BitVec.ofNat 8 (hour12 dt.hour.toNat)) := by
  simp only [encodeHour, h, hour12, if_true]

theorem encodeHour_of_mode24 {dt : Datetime} (h : dt.mode12h = false) :
    encodeHour dt = encodeBcd (BitVec.ofNat 8 (dt.hour.toNat % 24)) := by
  simp [encodeHour, h]

/-- In 12-hour mode the mode bit, the pm bit and the digits stand apart, and bit 7 is clear (R83, R142). -/
theorem hourByte12_fields (pm : Bool) (v : Byte) : v.toNat ≤ 12 →
    let b := 0x40 ||| (if pm then 0x20 else 0x00) ||| encodeBcd v
    b.getLsbD 7 = false ∧ b.getLsbD 6 = true ∧ b.getLsbD 5 = pm ∧ b &&& 0x1F = encodeBcd v ∧
      b &&& 0x9F = encodeBcd v := by
  revert pm v
  decide

theorem encodeHour_mode12_fields {dt : Datetime} (h : dt.mode12h = true) :
    let digits := encodeBcd (BitVec.ofNat 8 (hour12 dt.hour.toNat))
    (encodeHour dt).getLsbD 7 = false ∧ (encodeHour dt).getLsbD 6 = true ∧ (encodeHour dt).getLsbD 5 = dt.pm ∧
      encodeHour dt &&& 0x1F = digits ∧ encodeHour dt &&& 0x9F = digits := by
  have := hour12_le dt.hour.toNat
  rw [encodeHour_of_mode12 h]
  apply hourByte12_fields
  rw [BitVec.toNat_ofNat]
  omega

/-- Bit 6 of the encoded hour byte is the mode: in 24-hour mode the tens digit is at most 2 (R84, R142). -/
theorem encodeHour_mode (dt : Datetime) : (encodeHour dt).getLsbD 6 = dt.mode12h := by
  cases h : dt.mode12h with
  | true => exact (encodeHour_mode12_fields h).2.1
  | false =>
    have clear : ∀ v : Byte, v.toNat ≤ 23 → (encodeBcd v).getLsbD 6 = false := by decide
    rw [encodeHour_of_mode24 h]
    apply clear
    rw [BitVec.toNat_ofNat]
    omega

theorem encodeHour_mode12_packs {dt : Datetime} (h : dt.mode12h = true) :
    packs (encodeHour dt &&& 0x1F) (hour12 dt.hour.toNat) := by
  obtain ⟨-, -, -, digits, -⟩ := encodeHour_mode12_fields h
  rw [digits]
  exact encodeBcd_packs _ ((hour12_le _).trans (by decide))

theorem encodeHour_mode24_packs {dt : Datetime} (h : dt.mode12h = false) :
    packs (encodeHour dt) (dt.hour.toNat % 24) := by
  rw [encodeHour_of_mode24 h]
  exact encodeBcd_mod_packs _ (by decide) (by decide)

/-! ## The other encoded bytes (R142) -/

section
variable (m : Mirror) (dt : Datetime)

theorem encodeDT_sec_packs : packs ((encodeDT m dt).sec &&& 0x7F) (dt.second.toNat % 60) := by
  rw [encodeDT_sec_and_7F]
  exact encodeBcd_mod_packs _ (by decide) (by decide)

theorem encodeDT_min_packs : packs (encodeDT m dt).min (dt.minute.toNat % 60) :=
  encodeBcd_mod_packs _ (by decide) (by decide)

theorem encodeDT_wday_toNat : (encodeDT m dt).wday.toNat = clamp dt.weekday.toNat 1 7 :=
  toNat_ofNat_clamp _ _ (by decide)

theorem encodeDT_day_packs : packs (encodeDT m dt).day (clamp dt.day.toNat 1 31) :=
  encodeBcd_clamp_packs _ _ (by decide)

theorem encodeDT_mon_packs : packs (encodeDT m dt).mon (clamp dt.month.toNat 1 12) :=
  encodeBcd_clamp_packs _ _ (by decide)

theorem encodeDT_year_packs : packs (encodeDT m dt).year (dt.year.toNat % 100) :=
  encodeBcd_mod_packs _ (by decide) (by decide)

end

/-! ## The normal form (R145) -/

/-- The hour byte of the normal form: wrapping by the mode first changes nothing. -/
theorem encodeHour_normalised (dt : Datetime) : encodeHour dt.normalised = encodeHour dt := by
  cases h : dt.mode12h with
  | true =>
    have wrapped : dt.normalised.hour.toNat = dt.hour.toNat % 12 := by
      simp only [Datetime.normalised, h, if_true]
      exact toNat_ofNat_mod _ (by decide) (by decide)
    rw [encodeHour_of_mode12 h, encodeHour_of_mode12 (dt := dt.normalised) h, wrapped, hour12_mod]
    rfl
  | false =>
    have wrapped : dt.normalised.hour.toNat = dt.hour.toNat % 24 := by
      simp only [Datetime.normalised, h, Bool.false_eq_true, if_false]
      exact toNat_ofNat_mod _ (by decide) (by decide)
    rw [encodeHour_of_mode24 h, encodeHour_of_mode24 (dt := dt.normalised) h, wrapped, Nat.mod_mod]

/-- Encoding wraps and clamps, so wrapping and clamping first changes nothing. -/
theorem encodeDT_normalised (m : Mirror) (dt : Datetime) : encodeDT m dt.normalised = encodeDT m dt := by
  have wrap60 (x : Nat) : (BitVec.ofNat 8 (x % 60)).toNat % 60 = x % 60 := by
    rw [toNat_ofNat_mod _ (by decide) (by decide), Nat.mod_mod]
  have wrap100 (x : Nat) : (BitVec.ofNat 16 (x % 100)).toNat % 100 = x % 100 := by
    rw [toNat_ofNat_mod _ (by decide) (by decide), Nat.mod_mod]
  have clamped (x lo : Nat) {hi : Nat} (fits : hi < 2 ^ 8) :
      clamp (BitVec.ofNat 8 (clamp x lo hi)).toNat lo hi = clamp x lo hi := by
    rw [toNat_ofNat_clamp _ _ fits, clamp_clamp]
  simp only [encodeDT, encodeHour_normalised]
  simp only [Datetime.normalised, wrap60, wrap100, clamped _ _ (show 31 < 2 ^ 8 by decide),
    clamped _ _ (show 12 < 2 ^ 8 by decide), clamped _ _ (show 7 < 2 ^ 8 by decide)]

/-! ## Decoding (R140) -/

theorem decodeDT_second_toNat (m : Mirror) :
    (decodeDT m).second.toNat = 10 * bcdTens (m.sec &&& 0x7F) + bcdUnits m.sec := by
  rw [← bcdUnits_and m.sec (mask := 0x7F) (by decide)]
  exact decodeBcd_toNat _

theorem decodeDT_hour_of_mode12 {m : Mirror} (h : m.hour.getLsbD 6 = true) :
    (decodeDT m).hour = decodeBcd (m.hour &&& 0x9F) :=
  if_pos h

theorem decodeDT_hour_of_mode24 {m : Mirror} (h : m.hour.getLsbD 6 = false) : (decodeDT m).hour = decodeBcd m.hour :=
  if_neg (ne_true_of_eq_false h)

theorem decodeDT_hour_toNat_of_mode12 {m : Mirror} (h : m.hour.getLsbD 6 = true) :
    (decodeDT m).hour.toNat = 10 * bcdTens (m.hour &&& 0x9F) + bcdUnits m.hour := by
  rw [decodeDT_hour_of_mode12 h, decodeBcd_toNat, bcdUnits_and m.hour (by decide)]

/-- A decoded byte is at most 165, so the year does not wrap (R140). -/
theorem decodeDT_year_toNat (m : Mirror) :
    (decodeDT m).year.toNat = 2000 + 10 * bcdTens m.year + bcdUnits m.year := by
  have value := decodeBcd_toNat m.year
  have bound := decodeBcd_le m.year
  simp only [decodeDT, Config.centuryBase, BitVec.toNat_add, BitVec.toNat_setWidth, BitVec.toNat_ofNat]
  omega

/-! ## Decoding what was encoded (R147) -/

/-- What decoding makes of an encoded Datetime: its normal form (R145) in the century of R140, with 12 for hour 0 in
12-hour mode, and no pm in 24-hour mode. -/
def Datetime.stored (d : Datetime) : Datetime :=
  { d.normalised with
    hour := BitVec.ofNat 8 (if d.mode12h then hour12 d.hour.toNat else d.hour.toNat % 24)
    pm := d.mode12h && d.pm
    year := BitVec.ofNat 16 (2000 + d.year.toNat % 100) }

theorem Datetime.eq_of_fields {d e : Datetime} (year : d.year = e.year) (month : d.month = e.month)
    (day : d.day = e.day) (hour : d.hour = e.hour) (minute : d.minute = e.minute) (second : d.second = e.second)
    (weekday : d.weekday = e.weekday) (mode12h : d.mode12h = e.mode12h) (pm : d.pm = e.pm) : d = e := by
  cases d
  cases e
  simp_all only

theorem decodeDT_encodeDT_hour (m : Mirror) (dt : Datetime) : (decodeDT (encodeDT m dt)).hour = dt.stored.hour := by
  have mode := encodeHour_mode dt
  cases h : dt.mode12h with
  | true =>
    obtain ⟨-, -, -, -, digits⟩ := encodeHour_mode12_fields h
    rw [decodeDT_hour_of_mode12 (m := encodeDT m dt) (mode.trans h)]
    simp only [encodeDT, Datetime.stored, h, digits, if_true]
    exact decodeBcd_encodeBcd_ofNat ((hour12_le _).trans (by decide))
  | false =>
    rw [decodeDT_hour_of_mode24 (m := encodeDT m dt) (mode.trans h)]
    simp only [encodeDT, Datetime.stored, h, encodeHour_of_mode24 h, Bool.false_eq_true, if_false]
    exact decodeBcd_encodeBcd_ofNat (by omega)

theorem decodeDT_encodeDT_pm (m : Mirror) (dt : Datetime) : (decodeDT (encodeDT m dt)).pm = dt.stored.pm := by
  have mode := encodeHour_mode dt
  simp only [decodeDT, encodeDT, Mirror.hourMode12, Mirror.hourPm, Datetime.stored, mode]
  cases h : dt.mode12h with
  | true =>
    obtain ⟨-, -, pm, -⟩ := encodeHour_mode12_fields h
    rw [pm]
  | false => rfl

theorem decodeDT_encodeDT_year (m : Mirror) (dt : Datetime) : (decodeDT (encodeDT m dt)).year = dt.stored.year := by
  obtain ⟨tens, units⟩ := encodeDT_year_packs m dt
  apply BitVec.eq_of_toNat_eq
  rw [decodeDT_year_toNat, tens, units]
  simp only [Datetime.stored, BitVec.toNat_ofNat]
  omega

theorem decodeDT_encodeDT (m : Mirror) (dt : Datetime) : decodeDT (encodeDT m dt) = dt.stored := by
  have second : (decodeDT (encodeDT m dt)).second = dt.stored.second := by
    simp only [decodeDT, encodeDT_sec_and_7F]
    exact decodeBcd_encodeBcd_ofNat (by omega)
  have minute : (decodeDT (encodeDT m dt)).minute = dt.stored.minute := decodeBcd_encodeBcd_ofNat (by omega)
  have day : (decodeDT (encodeDT m dt)).day = dt.stored.day :=
    decodeBcd_encodeBcd_ofNat ((clamp_le _ _ _).trans (by decide))
  have month : (decodeDT (encodeDT m dt)).month = dt.stored.month :=
    decodeBcd_encodeBcd_ofNat ((clamp_le _ _ _).trans (by decide))
  have mode : (decodeDT (encodeDT m dt)).mode12h = dt.stored.mode12h := encodeHour_mode dt
  exact Datetime.eq_of_fields (decodeDT_encodeDT_year m dt) month day (decodeDT_encodeDT_hour m dt) minute second rfl
    mode (decodeDT_encodeDT_pm m dt)

/-- The century is always 2000 to 2099 (R140, C1). -/
theorem Datetime.stored_year_mem (d : Datetime) : 2000 ≤ d.stored.year.toNat ∧ d.stored.year.toNat ≤ 2099 := by
  simp only [Datetime.stored, BitVec.toNat_ofNat]
  omega

/-! ## The Datetimes that come back (R147) -/

section
variable {d : Datetime}

theorem Datetime.inRange_iff : d.inRange = true ↔
    (2000 ≤ d.year.toNat ∧ d.year.toNat ≤ 2099) ∧ (1 ≤ d.month.toNat ∧ d.month.toNat ≤ 12) ∧
      (1 ≤ d.day.toNat ∧ d.day.toNat ≤ 31) ∧ d.minute.toNat ≤ 59 ∧ d.second.toNat ≤ 59 ∧
      1 ≤ d.weekday.toNat ∧ d.weekday.toNat ≤ 7 := by
  simp only [Datetime.inRange, decide_eq_true_eq, and_assoc]

/-- In range, only the hour and pm can come back changed. -/
theorem Datetime.stored_of_inRange (range : d.inRange = true) (hour : d.stored.hour = d.hour)
    (pm : d.stored.pm = d.pm) : d.stored = d := by
  obtain ⟨year, month, day, minute, second, weekday⟩ := Datetime.inRange_iff.mp range
  have wrapped (x : Byte) (h : x.toNat ≤ 59) : BitVec.ofNat 8 (x.toNat % 60) = x := by
    rw [Nat.mod_eq_of_lt (by omega), BitVec.ofNat_toNat, BitVec.setWidth_eq]
  have clamped (x : Byte) (lo hi : Nat) (h : lo ≤ x.toNat ∧ x.toNat ≤ hi) :
      BitVec.ofNat 8 (clamp x.toNat lo hi) = x := by
    rw [clamp_of_mem h.1 h.2, BitVec.ofNat_toNat, BitVec.setWidth_eq]
  have century : BitVec.ofNat 16 (2000 + d.year.toNat % 100) = d.year := by
    rw [show 2000 + d.year.toNat % 100 = d.year.toNat by omega, BitVec.ofNat_toNat, BitVec.setWidth_eq]
  exact Datetime.eq_of_fields century (clamped _ _ _ month) (clamped _ _ _ day) hour (wrapped _ minute)
    (wrapped _ second) (clamped _ _ _ weekday) rfl pm

theorem Datetime.stored_of_valid24 (valid : d.valid24 = true) : d.stored = d := by
  simp only [Datetime.valid24, Bool.and_eq_true, decide_eq_true_eq, Bool.not_eq_true'] at valid
  obtain ⟨⟨⟨range, hour⟩, mode24⟩, pm⟩ := valid
  have whole : d.hour.toNat % 24 = d.hour.toNat := Nat.mod_eq_of_lt (by omega)
  apply Datetime.stored_of_inRange range
  · simp [Datetime.stored, mode24, whole]
  · simp [Datetime.stored, mode24, pm]

theorem Datetime.stored_of_valid12 (valid : d.valid12 = true) : d.stored = d := by
  simp only [Datetime.valid12, Bool.and_eq_true, decide_eq_true_eq] at valid
  obtain ⟨⟨range, lower, upper⟩, mode12⟩ := valid
  apply Datetime.stored_of_inRange range
  · simp [Datetime.stored, mode12, hour12_of_mem lower upper]
  · simp [Datetime.stored, mode12]

end

end Sys2Proof.Machine
end

section
open Sys2Proof Sys2Proof.Machine

/-- Settles O20: every field is the formula of R110 on its byte, and the masks on the seconds and hour bytes keep the
units digit. -/
theorem dtDecodeWritesTheDecodedDatetime : Obligations.DtDecodeWritesTheDecodedDatetime := by
  intro s
  refine ⟨decodeDT s.mirror, exec_dtDecode s, decodeDT_second_toNat _, decodeBcd_toNat _, rfl, rfl,
    decodeDT_hour_toNat_of_mode12, fun mode24 => ?_, decodeBcd_toNat _, decodeBcd_toNat _, decodeDT_year_toNat _, rfl⟩
  rw [decodeDT_hour_of_mode24 mode24, decodeBcd_toNat]

/-- Settles O21: the bytes of encodeDT one by one, the hour byte by its mode. -/
theorem dtEncodeWritesNormalisedBcd : Obligations.DtEncodeWritesNormalisedBcd := by
  intro s
  refine ⟨encodeDT s.mirror s.dtIn, exec_dtEncode s, encodeDT_sameBit_ch _ _, encodeDT_sec_packs _ _,
    encodeDT_min_packs _ _, fun mode12 => ?hour12, encodeHour_mode24_packs, encodeDT_wday_toNat _ _,
    encodeDT_day_packs _ _, encodeDT_mon_packs _ _, encodeDT_year_packs _ _, rfl⟩
  obtain ⟨bit7, bit6, bit5, -⟩ := encodeHour_mode12_fields mode12
  exact ⟨bit7, bit6, bit5, encodeHour_mode12_packs mode12⟩

/-- Settles O23: the laws are those of the encoded bytes, at the values that R146 names. -/
theorem encodeKeepsClockHaltAndNormalises : Obligations.EncodeKeepsClockHaltAndNormalises := by
  intro s
  have hour (mode12 : s.dtIn.mode12h = true) := encodeHour_mode12_packs mode12
  have day := encodeDT_day_packs s.mirror s.dtIn
  have month := encodeDT_mon_packs s.mirror s.dtIn
  have second := encodeDT_sec_packs s.mirror s.dtIn
  refine ⟨_, exec_dtEncode s, congrArg not (encodeDT_sameBit_ch s.mirror s.dtIn), fun mode12 edge => ?_,
    fun h => ?_, fun h => ?_, fun h => ?_⟩
  · rcases edge with h | h <;> rw [h] at hour <;> exact hour mode12
  · rw [h] at day
    exact day
  · rw [h] at month
    exact month
  · rw [h] at second
    exact second

/-- Settles O24: DT_OUT is the stored form of DT_IN, which is DT_IN itself just where R147 says. -/
theorem encodeThenDecodeRoundTrips : Obligations.EncodeThenDecodeRoundTrips := by
  intro s
  have out : decodeDT (encodeDT s.mirror s.dtIn) = s.dtIn.stored := decodeDT_encodeDT _ _
  refine ⟨_, _, exec_dtEncode s, exec_dtDecode _, fun valid => out.trans (Datetime.stored_of_valid24 valid),
    fun valid => out.trans (Datetime.stored_of_valid12 valid), fun outside back => ?year, fun mode24 => ?pm,
    fun mode12 zero => ?hour⟩
  case year =>
    have mem := s.dtIn.stored_year_mem
    rw [out.symm.trans back] at mem
    omega
  case pm =>
    refine (congrArg Datetime.pm out).trans ?_
    simp [Datetime.stored, mode24]
  case hour =>
    refine (congrArg Datetime.hour out).trans ?_
    simp [Datetime.stored, mode12, zero, hour12]

/-- Settles O25: DT_ENCODE always succeeds, and encodeDT does not tell a Datetime from its normal form. -/
theorem outOfRangeDatetimesAreNormalisedNotRejected : Obligations.OutOfRangeDatetimesAreNormalisedNotRejected := by
  intro s
  refine ⟨encodeDT s.mirror s.dtIn, exec_dtEncode s, ?_⟩
  rw [← encodeDT_normalised]
  exact exec_dtEncode _

/-- Settles O36: READ_DT is the block read, and DT_OUT decodes the mirror that it has filled. -/
theorem readDtDecodesTheFreshBlock : Obligations.ReadDtDecodesTheFreshBlock := by
  intro s hs
  refine ⟨blockRead .readDt 0 publishDatetime s, rfl, ?_⟩
  rcases blockRead_prompt .readDt 0 publishDatetime s hs with failed | ⟨f, b, s₁, run, -, tr, e⟩
  · exact .inl failed
  · refine .inr ⟨f, b, ?_, ?_⟩ <;> rw [run]
    · exact tr
    · rw [e]
      rfl

end

/-! # The clock halt bit of M[0] (R160, R161, R165) -/

section
namespace Sys2Proof.Machine

@[simp] theorem Mirror.setCh_ch (m : Mirror) : m.setCh.ch = true := by simp [Mirror.ch, Mirror.setCh]

/-- Clearing CH is a mask that keeps bits 6:0. -/
theorem Mirror.clearCh_sameBit (m : Mirror) {j : Nat} (hj : j < 7) : sameBit m.clearCh.sec m.sec j := by
  have kept : sameBit (m.sec &&& 0x7F ||| 0#8) m.sec j := sameBit_and_or (p := (· < 7)) (by decide) hj
  rwa [BitVec.or_zero] at kept

/-- Setting CH needs no mask, and the bit set is none of bits 6:0. -/
theorem Mirror.setCh_sameBit (m : Mirror) {j : Nat} (hj : j < 7) : sameBit m.setCh.sec m.sec j := by
  have kept : sameBit (m.sec &&& BitVec.allOnes 8 ||| 0x80) m.sec j := sameBit_and_or (p := (· < 7)) (by decide) hj
  rwa [BitVec.and_allOnes] at kept

end Sys2Proof.Machine
end

section
open Sys2Proof Sys2Proof.Machine

/-- Settles O26: each command is its update of CH and `finish`, and the update keeps bits 6:0 of the seconds byte. -/
theorem clockBitCommandsChangeOnlyClockHalt : Obligations.ClockBitCommandsChangeOnlyClockHalt :=
  fun s => ⟨s.mirror.clearCh.sec, s.mirror.setCh.sec, exec_local_eq rfl s, exec_local_eq rfl s,
    s.mirror.clearCh_ch, s.mirror.setCh_ch, fun _ hj => ⟨s.mirror.clearCh_sameBit hj, s.mirror.setCh_sameBit hj⟩⟩

end

/-! # START_SQW by the cases of R188 -/

section
namespace Sys2Proof.Machine

theorem Mirror.rs_eq_iff (m : Mirror) (rate : BitVec 2) : m.rs = rate ↔ m.ctl.toNat % 4 = rate.toNat := by
  rw [← m.rs_toNat, BitVec.toNat_inj]

theorem startIfHalted_of_halted (rate : BitVec 2) {s : State} (h : s.mirror.ch = true) :
    startIfHalted rate s = clockStart (.startSqw rate) 1 s :=
  if_pos h

/-- With the settings as asked for only the clock start is left to do (R188). -/
theorem startSquareWave_of_matches {rate : BitVec 2} {s : State} (hsqwe : s.mirror.sqwe = true)
    (hrs : s.mirror.rs = rate) : startSquareWave rate s = startIfHalted rate s := by
  cases hch : s.mirror.ch <;> simp [startSquareWave, startIfHalted, hsqwe, hrs, hch]

/-- With the clock running too nothing is left to do (R188). -/
theorem startSquareWave_of_running_of_matches {rate : BitVec 2} {s : State} (hch : s.mirror.ch = false)
    (hsqwe : s.mirror.sqwe = true) (hrs : s.mirror.rs = rate) : startSquareWave rate s = finish .success s :=
  (startSquareWave_of_matches hsqwe hrs).trans (startIfHalted_of_running rate hch)

/-- On a halted chip the control write fails and ends the command, or the clock start follows it (R188). -/
theorem controlWriteStage_of_halted_prompt {rate : BitVec 2} {s t : State} (run : controlWriteStage rate s = t)
    (hs : s.prompt = true) (hch : s.mirror.ch = true) :
    (∃ c, t.env.trace = s.env.trace ++ [writeEvent [s.mirror.ctl] 0x07 (.err c)] ∧
      t = { s with mv := false, result := .busFail c, phase := .idle, env := t.env }) ∨
    BlockReadFailed s t [writeEvent [s.mirror.ctl] 0x07 .ok] ∨
    SecondsRewritten s t [writeEvent [s.mirror.ctl] 0x07 .ok] (· &&& 0x7F) := by
  obtain ⟨s₁, ⟨e₁, tr₁⟩, ⟨delayed, -⟩ | ⟨keep, ok | ⟨c, failed⟩⟩⟩ := resultCall_cases (.startSqw rate) 0
    (.sendPrefixed [s.mirror.ctl] [0x07] true) busFail (startIfHalted rate) s
  · simp [hs] at delayed
  · let s₂ := s₁.emit (.sendPrefixed [s.mirror.ctl] [0x07] true) (.result .ok)
    have e₂ : s₂ = { s with env := s₂.env } := congrArg (State.emit _ _) e₁
    have halted : s₂.mirror.ch = true := by rwa [e₂]
    obtain rfl : clockStart (.startSqw rate) 1 s₂ = t :=
      (startIfHalted_of_halted rate halted).symm.trans (ok.symm.trans run)
    exact .inr (clockStart_prompt (.startSqw rate) 1 s s₂ _ (keep hs) e₂ (congrArg (· ++ _) tr₁))
  · obtain rfl := failed.symm.trans run
    refine .inl ⟨c, congrArg (· ++ _) tr₁, ?_⟩
    rw [e₁]
    rfl

/-- What START_SQW leaves when it ends with the clock running: the settings it was asked for (R188). -/
theorem startSquareWave_of_running_settles (rate : BitVec 2) {s : State} (hs : s.prompt = true)
    (hch : s.mirror.ch = false) :
    (startSquareWave rate s).phase = .idle ∧ (startSquareWave rate s).mirror.ch = false ∧
      (startSquareWave rate s).mirror.sqwe = true ∧ (startSquareWave rate s).mirror.rs = rate := by
  by_cases settings : s.mirror.sqwe = true ∧ s.mirror.rs = rate
  · obtain ⟨hsqwe, hrs⟩ := settings
    rw [startSquareWave_of_running_of_matches hch hsqwe hrs]
    exact ⟨rfl, hch, hsqwe, hrs⟩
  · have differs : s.mirror.sqwe = false ∨ s.mirror.rs ≠ rate := by
      rwa [not_and_or, Bool.not_eq_true] at settings
    obtain ⟨r, -, e⟩ :=
      controlWriteStage_endedByCall rate (s := { s with mirror := s.mirror.setSquareWave rate }) hs hch
    rw [startSquareWave_of_differs differs, e]
    exact ⟨rfl, hch, s.mirror.setSquareWave_sqwe rate, s.mirror.setSquareWave_rs rate⟩

theorem finish_of_succeeded {s : State} (h : s.succeeded) : finish .success s = s := by
  obtain ⟨phase, result⟩ := h
  rw [finish, ← phase, ← result]

end Sys2Proof.Machine
end

section
open Sys2Proof Sys2Proof.Machine

/-- Settles O41: with the settings as asked for START_SQW would only start the clock, and it runs. -/
theorem startSqwDoesNothingWhenAllMatches : Obligations.StartSqwDoesNothingWhenAllMatches :=
  fun r s hch hsqwe hrs => congrArg Host.Outcome.next
    (startSquareWave_of_running_of_matches hch hsqwe ((s.mirror.rs_eq_iff r).mpr hrs))

/-- Settles O43: with the settings as asked for the halted clock is started, by the calls from number 1 (log 6). -/
theorem startSqwOnlyStartsTheClockWhenSettingsMatch : Obligations.StartSqwOnlyStartsTheClockWhenSettingsMatch := by
  intro r s hs hch hsqwe hrs
  have run : startSquareWave r s = clockStart (.startSqw r) 1 s :=
    (startSquareWave_of_matches hsqwe ((s.mirror.rs_eq_iff r).mpr hrs)).trans (startIfHalted_of_halted r hch)
  exact ⟨_, congrArg Host.Outcome.next run, clockStart_prompt (.startSqw r) 1 s s [] hs rfl (by simp)⟩

/-- Settles O44: the settings differ, so the control write is made, of the byte with the new settings; the chip is
halted, so the clock start follows an OK. -/
theorem startSqwWritesControlThenStartsTheClock : Obligations.StartSqwWritesControlThenStartsTheClock := by
  intro r s hs hch differs
  have settings : s.mirror.sqwe = false ∨ s.mirror.rs ≠ r := differs.imp_right (mt (s.mirror.rs_eq_iff r).mp)
  have rs : (s.mirror.setSquareWave r).ctl.toNat % 4 = r.toNat :=
    (Mirror.rs_eq_iff _ r).mp (s.mirror.setSquareWave_rs r)
  exact ⟨_, _, congrArg Host.Outcome.next (startSquareWave_of_differs settings),
    s.mirror.setSquareWave_sqwe r, rs, fun _ => s.mirror.setSquareWave_sameBit r,
    controlWriteStage_of_halted_prompt rfl hs hch⟩

/-- Settles O45: the first START_SQW leaves the clock running with the settings asked for, so the second only finishes,
with the RESULT and PHASE that are there. -/
theorem secondStartSqwWritesNothing : Obligations.SecondStartSqwWritesNothing := by
  intro r s t hs hch ht success
  obtain rfl : startSquareWave r s = t := Host.Outcome.next.inj ht
  obtain ⟨idle, running, hsqwe, hrs⟩ := startSquareWave_of_running_settles r hs hch
  exact congrArg Host.Outcome.next
    ((startSquareWave_of_running_of_matches running hsqwe hrs).trans (finish_of_succeeded ⟨idle, success⟩))

end

/-! # No step splits a block read (R59, R73, R180, R258)

A block read is split only by an event between its pointer send and its receive. A command that is at neither of the two
keeps the reads of the trace whole by making other calls; at the two calls themselves the newest events are what
`State.unsplitInv` says of the phases that wait there. -/

section
namespace Sys2Proof.Machine

/-! ## The phases that wait inside a block read -/

theorem Phase.not_awaitsReceive_of_awaitsPointerSend {p : Phase} (h : p.awaitsPointerSend = true) :
    p.awaitsReceive = false := by
  unfold Phase.awaitsPointerSend at h
  split at h
  case h_6 => cases h
  all_goals rfl

theorem Phase.not_awaitsPointerSend_of_awaitsReceive {p : Phase} (h : p.awaitsReceive = true) :
    p.awaitsPointerSend = false := by
  by_contra send
  simp [Phase.not_awaitsReceive_of_awaitsPointerSend (Bool.eq_true_of_not_eq_false send)] at h

/-- The receive is the call after the pointer send (R180, log 6). -/
theorem Phase.awaitsReceive_succ {cmd : Instr} {k : Nat} (h : (Phase.busy cmd k).awaitsPointerSend = true) :
    (Phase.busy cmd (k + 1)).awaitsReceive = true := by
  unfold Phase.awaitsPointerSend at h
  split at h
  case h_6 => cases h
  all_goals
    rename_i e
    cases e
    rfl

/-- The command waits at the pointer send or the receive of a block read. -/
def Phase.insideRead (p : Phase) : Bool := p.awaitsPointerSend || p.awaitsReceive

/-! ## The reads of a trace -/

/-- No block read so far is split (R258). -/
def State.readsWhole (s : State) : Prop := readsUnsplit s.env.trace.reverse = true

section
variable {s : State}

theorem State.readsWhole.of_trace_eq {s₁ : State} (h : s.readsWhole) (tr : s₁.env.trace = s.env.trace) :
    s₁.readsWhole := by
  rwa [State.readsWhole, tr]

/-- A call that is no receive splits nothing that is in the trace. -/
theorem State.readsWhole.emit {c : Call} (h : s.readsWhole) (hc : c.isReceive = false) (a : Answer) :
    (s.emit c a).readsWhole := by
  simpa [State.readsWhole, readsUnsplit, hc] using h

/-- A receive right after the pointer send (R180). -/
theorem State.readsWhole.emit_of_pointerJustSent (h : s.readsWhole)
    (sent : pointerJustSent s.env.trace.reverse = true) (c : Call) (a : Answer) : (s.emit c a).readsWhole := by
  simpa [State.readsWhole, readsUnsplit, sent] using h

theorem State.readsWhole.restoreStop (h : s.readsWhole) : (restoreStop s).readsWhole := h.emit rfl .none

/-- The answered pointer send after the repeated start (R180). -/
theorem State.pointerJustSent_emit (h : s.env.trace.getLast? = some ⟨.setRepeatedStart, .none⟩) :
    pointerJustSent (s.emit (.send [secondsAddress]) (.result .ok)).env.trace.reverse = true := by
  obtain ⟨older, tr⟩ := List.getLast?_eq_some_iff.mp h
  simp [tr, pointerJustSent, secondsAddress]

theorem State.unsplitInv_of_idle (idle : s.phase = .idle) (h : s.readsWhole) : s.unsplitInv :=
  ⟨h, fun send => by simp [idle, Phase.awaitsPointerSend] at send,
    fun receive => by simp [idle, Phase.awaitsReceive] at receive⟩

/-- Waiting anywhere but inside a block read. -/
theorem State.unsplitInv_waitAt_outside {cmd : Instr} {k : Nat} (h : s.readsWhole)
    (outside : (Phase.busy cmd k).insideRead = false) : (s.waitAt cmd k).unsplitInv := by
  obtain ⟨send, receive⟩ := Bool.or_eq_false_iff.mp outside
  exact ⟨h, fun sends => by simp [send] at sends, fun receives => by simp [receive] at receives⟩

/-- Waiting at the pointer send, the repeated start being the newest event (R180). -/
theorem State.unsplitInv_waitAt_pointerSend {cmd : Instr} {k : Nat} (h : s.readsWhole)
    (send : (Phase.busy cmd k).awaitsPointerSend = true)
    (last : s.env.trace.getLast? = some ⟨.setRepeatedStart, .none⟩) : (s.waitAt cmd k).unsplitInv :=
  ⟨h, fun _ => last, fun receives => by simp [Phase.not_awaitsReceive_of_awaitsPointerSend send] at receives⟩

/-- Waiting at the receive, the pointer send being the newest event (R180). -/
theorem State.unsplitInv_waitAt_receive {cmd : Instr} {k : Nat} (h : s.readsWhole)
    (receive : (Phase.busy cmd k).awaitsReceive = true) (sent : pointerJustSent s.env.trace.reverse = true) :
    (s.waitAt cmd k).unsplitInv :=
  ⟨h, fun sends => by simp [Phase.not_awaitsPointerSend_of_awaitsReceive receive] at sends, fun _ => sent⟩

end

/-! ## The calls -/

/-- What a command has left to do, from a point outside its block reads, splits no read. -/
def KeepsUnsplit (f : State → State) : Prop := ∀ s, s.readsWhole → (f s).unsplitInv

section
variable {cmd : Instr} {k : Nat} {next : State → State} {s : State}

theorem finish_keepsUnsplit (r : Result) : KeepsUnsplit (finish r) := fun _ h => State.unsplitInv_of_idle rfl h

theorem busFail_keepsUnsplit (e : TransportCode) : KeepsUnsplit (busFail e) :=
  fun _ h => State.unsplitInv_of_idle rfl h

theorem publishDatetime_keepsUnsplit : KeepsUnsplit publishDatetime := fun _ h => State.unsplitInv_of_idle rfl h

theorem KeepsUnsplit.write {f : State → State} (h : KeepsUnsplit f) (g : Mirror → Datetime → Mirror) :
    KeepsUnsplit fun s => f { s with mirror := g s.mirror s.dtIn } :=
  fun s whole => h { s with mirror := g s.mirror s.dtIn } whole

/-- An unanswered call leaves the command waiting as unsplit as it came to the call; for each answer it is enough to
look at what follows it. -/
theorem resultCall_unsplitInv {c : Call} {onErr : TransportCode → State → State} (wait : (s.waitAt cmd k).unsplitInv)
    (err : ∀ e (s₁ : State), s₁.env.trace = s.env.trace → (onErr e (s₁.emit c (.result (.err e)))).unsplitInv)
    (ok : ∀ s₁ : State, s₁.env.trace = s.env.trace → (next (s₁.emit c (.result .ok))).unsplitInv) :
    (resultCall cmd k c onErr next s).unsplitInv := by
  obtain ⟨s₁, ⟨-, tr⟩, ⟨-, e⟩ | ⟨-, e | ⟨code, e⟩⟩⟩ := resultCall_cases cmd k c onErr next s <;> rw [e]
  · rwa [State.unsplitInv, State.waitAt_env, State.waitAt_phase, tr]
  · exact ok s₁ tr
  · exact err code s₁ tr

/-- A call outside the block reads (R181, R184 to R188). -/
theorem abortingCall_unsplitInv {c : Call} (outside : (Phase.busy cmd k).insideRead = false)
    (hc : c.isReceive = false) (ok : KeepsUnsplit next) (h : s.readsWhole) :
    (resultCall cmd k c busFail next s).unsplitInv :=
  resultCall_unsplitInv (State.unsplitInv_waitAt_outside h outside)
    (fun e _ tr => busFail_keepsUnsplit e _ ((h.of_trace_eq tr).emit hc _))
    (fun _ tr => ok _ ((h.of_trace_eq tr).emit hc _))

/-! ## The block read -/

theorem receiveStage_unsplitInv (receive : (Phase.busy cmd k).awaitsReceive = true) (ok : KeepsUnsplit next)
    (inv : (s.waitAt cmd k).unsplitInv) : (receiveStage cmd k next s).unsplitInv := by
  obtain ⟨whole, -, sent⟩ := inv
  have received (s₁ : State) (tr : s₁.env.trace = s.env.trace) (a : Answer) :
      (restoreStop (s₁.emit (.receive 8) a)).readsWhole :=
    ((State.readsWhole.of_trace_eq whole tr).emit_of_pointerJustSent (tr ▸ sent receive) _ a).restoreStop
  obtain ⟨s₁, ⟨-, tr⟩, ⟨-, e⟩ | ⟨-, ⟨b, e⟩ | ⟨code, e⟩⟩⟩ := receiveStage_cases cmd k next s <;> rw [e]
  · exact State.unsplitInv_waitAt_receive (State.readsWhole.of_trace_eq whole tr) receive (tr ▸ sent receive)
  · exact ok _ (received s₁ tr _)
  · exact busFail_keepsUnsplit code _ (received s₁ tr _)

/-- The receive comes right after the answered pointer send, or waits right after it (R180). -/
theorem sendPointerStage_unsplitInv (send : (Phase.busy cmd k).awaitsPointerSend = true) (ok : KeepsUnsplit next)
    (inv : (s.waitAt cmd k).unsplitInv) : (sendPointerStage cmd k next s).unsplitInv := by
  obtain ⟨whole, last, -⟩ := id inv
  have sent (s₁ : State) (tr : s₁.env.trace = s.env.trace) (a : Answer) :
      (s₁.emit (.send [secondsAddress]) a).readsWhole :=
    (State.readsWhole.of_trace_eq whole tr).emit rfl a
  refine resultCall_unsplitInv inv (fun e s₁ tr => busFail_keepsUnsplit e _ (sent s₁ tr _).restoreStop) fun s₁ tr => ?_
  have receive : (Phase.busy cmd (k + 1)).awaitsReceive = true := Phase.awaitsReceive_succ send
  exact receiveStage_unsplitInv receive ok (State.unsplitInv_waitAt_receive (sent s₁ tr _) receive
    (State.pointerJustSent_emit (tr ▸ last send)))

theorem blockRead_keepsUnsplit (send : (Phase.busy cmd (k + 2)).awaitsPointerSend = true) (ok : KeepsUnsplit next) :
    KeepsUnsplit (blockRead cmd k next) := by
  intro s h
  have answered : s.nextStopFlag.2.readsWhole := h.of_trace_eq s.nextStopFlag_same.2
  have opened := (answered.emit (c := .getStop) rfl (.flag s.nextStopFlag.1)).emit (c := .setRepeatedStart) rfl .none
  exact sendPointerStage_unsplitInv send ok (State.unsplitInv_waitAt_pointerSend opened send (by simp))

end

/-! ## Every command, from its start and from each waiting point

`Sequence` does not say which of the allowed calls an aborting call is, so the commands are gone through here. -/

section
variable {cmd : Instr} {k : Nat}

theorem secondsWriteStage_keepsUnsplit (outside : (Phase.busy cmd k).insideRead = false) :
    KeepsUnsplit (secondsWriteStage cmd k) :=
  fun _ => abortingCall_unsplitInv outside rfl (finish_keepsUnsplit .success)

theorem blockWriteStage_keepsUnsplit (outside : (Phase.busy cmd k).insideRead = false) :
    KeepsUnsplit (blockWriteStage cmd k) :=
  fun _ => abortingCall_unsplitInv outside rfl (finish_keepsUnsplit .success)

theorem clockStartWrite_keepsUnsplit (outside : (Phase.busy cmd k).insideRead = false) :
    KeepsUnsplit (clockStartWrite cmd k) :=
  (secondsWriteStage_keepsUnsplit outside).write fun m _ => m.clearCh

end

theorem clockStopWrite_keepsUnsplit : KeepsUnsplit clockStopWrite :=
  (secondsWriteStage_keepsUnsplit rfl).write fun m _ => m.setCh

theorem windowBeginStage_keepsUnsplit : KeepsUnsplit windowBeginStage :=
  fun _ => abortingCall_unsplitInv rfl rfl (finish_keepsUnsplit .success)

theorem setAddrStage_keepsUnsplit : KeepsUnsplit setAddrStage :=
  fun _ => abortingCall_unsplitInv rfl rfl windowBeginStage_keepsUnsplit

theorem startIfHalted_keepsUnsplit (rate : BitVec 2) : KeepsUnsplit (startIfHalted rate) := by
  intro s h
  cases hch : s.mirror.ch with
  | true =>
    rw [startIfHalted_of_halted rate hch]
    exact blockRead_keepsUnsplit rfl (clockStartWrite_keepsUnsplit rfl) s h
  | false =>
    rw [startIfHalted_of_running rate hch]
    exact finish_keepsUnsplit .success s h

theorem controlWriteStage_keepsUnsplit (rate : BitVec 2) : KeepsUnsplit (controlWriteStage rate) :=
  fun _ => abortingCall_unsplitInv rfl rfl (startIfHalted_keepsUnsplit rate)

theorem startSquareWave_keepsUnsplit (rate : BitVec 2) : KeepsUnsplit (startSquareWave rate) := by
  intro s h
  by_cases settings : s.mirror.sqwe = true ∧ s.mirror.rs = rate
  · obtain ⟨hsqwe, hrs⟩ := settings
    rw [startSquareWave_of_matches hsqwe hrs]
    exact startIfHalted_keepsUnsplit rate s h
  · rw [not_and_or, Bool.not_eq_true] at settings
    rw [startSquareWave_of_differs settings]
    exact controlWriteStage_keepsUnsplit rate { s with mirror := s.mirror.setSquareWave rate } h

theorem exec_unsplitInv {i : Instr} {s t : State} (h : s.readsWhole) (run : exec i s = .next t) : t.unsplitInv := by
  suffices keeps : ∃ f, KeepsUnsplit f ∧ ∀ s, exec i s = .next (f s) by
    obtain ⟨f, keeps, e⟩ := keeps
    obtain rfl : f s = t := Host.Outcome.next.inj ((e s).symm.trans run)
    exact keeps s h
  cases i with
  | init => exact ⟨_, setAddrStage_keepsUnsplit, fun _ => rfl⟩
  | readAll => exact ⟨_, blockRead_keepsUnsplit rfl (finish_keepsUnsplit .success), fun _ => rfl⟩
  | readDt => exact ⟨_, blockRead_keepsUnsplit rfl publishDatetime_keepsUnsplit, fun _ => rfl⟩
  | writeDt => exact ⟨_, (blockWriteStage_keepsUnsplit rfl).write encodeDT, fun _ => rfl⟩
  | startClockDt =>
    exact ⟨_, (blockWriteStage_keepsUnsplit rfl).write fun m d => encodeDT m.clearCh d, fun _ => rfl⟩
  | startClock => exact ⟨_, blockRead_keepsUnsplit rfl (clockStartWrite_keepsUnsplit rfl), fun _ => rfl⟩
  | stopClock => exact ⟨_, blockRead_keepsUnsplit rfl clockStopWrite_keepsUnsplit, fun _ => rfl⟩
  | startSqw rate => exact ⟨_, startSquareWave_keepsUnsplit rate, fun _ => rfl⟩
  | _ => exact ⟨_, fun _ h => finish_keepsUnsplit .success _ (h.of_trace_eq (by simp)), exec_of_isLocal rfl⟩

theorem waitingStage_unsplitInv {cmd : Instr} {k : Nat} {f : State → State} {s : State}
    (stage : waitingStage cmd k = some f) (inv : (s.waitAt cmd k).unsplitInv) : (f s).unsplitInv := by
  have whole : s.readsWhole := inv.1
  unfold waitingStage at stage
  split at stage <;> cases stage
  case h_1 => exact setAddrStage_keepsUnsplit s whole
  case h_2 => exact windowBeginStage_keepsUnsplit s whole
  case h_3 => exact sendPointerStage_unsplitInv rfl (finish_keepsUnsplit .success) inv
  case h_4 => exact receiveStage_unsplitInv rfl (finish_keepsUnsplit .success) inv
  case h_5 => exact sendPointerStage_unsplitInv rfl publishDatetime_keepsUnsplit inv
  case h_6 => exact receiveStage_unsplitInv rfl publishDatetime_keepsUnsplit inv
  case h_7 | h_8 => exact blockWriteStage_keepsUnsplit rfl s whole
  case h_9 | h_16 => exact sendPointerStage_unsplitInv rfl (clockStartWrite_keepsUnsplit rfl) inv
  case h_10 | h_17 => exact receiveStage_unsplitInv rfl (clockStartWrite_keepsUnsplit rfl) inv
  case h_12 => exact sendPointerStage_unsplitInv rfl clockStopWrite_keepsUnsplit inv
  case h_13 => exact receiveStage_unsplitInv rfl clockStopWrite_keepsUnsplit inv
  case h_15 rate => exact controlWriteStage_keepsUnsplit rate s whole
  case h_11 | h_14 | h_18 => exact secondsWriteStage_keepsUnsplit rfl s whole

theorem resume_unsplitInv {cmd : Instr} {k : Nat} {s t : State} (inv : s.unsplitInv) (busy : s.phase = .busy cmd k)
    (run : resume cmd k s = .next t) : t.unsplitInv := by
  by_cases hk : k ∈ waitPoints cmd
  · obtain ⟨f, stage, e⟩ := resume_of_mem_waitPoints hk s
    obtain rfl : f s = t := Host.Outcome.next.inj (e.symm.trans run)
    have waiting : s.waitAt cmd k = s := by rw [State.waitAt, ← busy]
    exact waitingStage_unsplitInv stage (waiting.symm ▸ inv)
  · rw [resume_of_notMem_waitPoints hk] at run
    cases run

end Sys2Proof.Machine
end

section
open Sys2Proof Sys2Proof.Machine

/-- Settles O52: a command goes on from its waiting point with the newest events that the invariant gives, and starts
outside a block read; a step that runs no command leaves the trace. -/
theorem stepNeverSplitsABlockRead : Obligations.StepNeverSplitsABlockRead := by
  intro s t inv ht
  have whole : s.readsWhole := inv.1
  cases step_stepsTo ht with
  | resumed busy _ => exact resume_unsplitInv inv busy ((step_of_busy busy).symm.trans ht)
  | nothing _ _ e => exact e ▸ inv
  | @accepted c rest _ idle first legal _ =>
    exact exec_unsplitInv (s := s.accept c rest) whole ((step_of_decode idle first legal).symm.trans ht)
  | illegal _ _ _ e => exact e ▸ State.unsplitInv_of_idle rfl whole

/-- Settles O53: after reset the core is idle, RESULT is SUCCESS and the trace is empty. -/
theorem resetMeetsTheInvariants : Obligations.ResetMeetsTheInvariants :=
  fun _ _ => ⟨State.phaseInv_of_idle rfl, nofun, nofun, State.unsplitInv_of_idle rfl rfl⟩

end
